-- ==== Sys2Proof/Word.lean ====
section
/-! DEFINITION. Word.lean: the machine's word types and its one wire constant.

The spec's notation is rule R18 (00_scope.md): a byte is 8 bits, numbered from 0, the least significant; a command word
is 16 bits (R72, 30_encoding.md); a CODEC result is a 32-bit binary32 pattern (R97, 41_codec.md). The block has no
multi-byte integer anywhere (R49, 20_memory.md), so there is no byte order to fix. -/

namespace Sys2Proof

/-- R18: a byte of the stream ("RawByte"), an unsigned value 0 to 255. -/
abbrev Byte := BitVec 8

/-- R72: the command word `w`, 16 bits, presented whole on the command port. -/
abbrev Word := BitVec 16

/-- R18, R97: a 32-bit IEEE 754 binary32 pattern (the document's `f32`). -/
abbrev F32 := BitVec 32

/-- R9: `SYNC_MARKER = 0xFF`, fixed. A frame boundary is two consecutive bytes of this value. -/
def syncMarker : Byte := 0xFF

/-- R13: `MAX_ROBOTS = 10`, fixed. -/
abbrev maxRobots : Nat := 10

end Sys2Proof
end

