-- ==== Sys2Proof/Syntax.lean ====
section
/-! DEFINITION. Syntax.lean: the operations a controller can request (R1, R73): one constructor per row of
spec/opcode_table.json. The operands of `FRAME` are state, not operands (R74). -/

namespace Sys2Proof

/-- R73, R75: the five commands. -/
inductive Instr where
  /-- `SYNC`: start a hunt (R84). -/
  | sync
  /-- `ABORT`: give up whatever is in progress (R90). -/
  | abort
  /-- `DECLIN b`: decode the linear encoding (R99). -/
  | declin (b : Byte)
  /-- `DECANG b, n`: decode the angular encoding; `n` is the `negative` flag (R100). -/
  | decang (b : Byte) (n : Bool)
  /-- `FRAME`: start the decode of one frame (R112). -/
  | frame
  deriving DecidableEq, Repr

end Sys2Proof
end

