-- ==== Sys2Proof/WellFormed.lean ====
section
/-! DEFINITION. WellFormed.lean: which operations a build has. The operands cannot be out of range: `b` is a byte and `n`
one bit by their types (R74: every `b` in 0 to 255 and both values of `n` are legal, R96). What is left to check is R76:
"With `WITH_FRAME_LAYER = false`, `OP = 0x8` is illegal too". -/

namespace Sys2Proof

/-- R5, R16, R76: the operation exists in a build whose `WITH_FRAME_LAYER` is `frameLayer`. -/
def wellFormed (frameLayer : Bool) (i : Instr) : Bool :=
  match i with
  | .sync       => true
  | .abort      => true
  | .declin _   => true
  | .decang _ _ => true
  | .frame      => frameLayer

end Sys2Proof
end

