-- ==== Sys2Proof/Decode.lean ====
section
/-! DEFINITION. Decode.lean: from a command word to an operation, and back (30_encoding.md Part B, R72 to R76, R79).
One format `C16`, one length, no prefix, no mode bit. Decoding is total on the 65536 words and rejects by name. -/

namespace Sys2Proof

/-! ## The fields of format C16 (R72) -/

/-- R72: `OP = w[15:12]`. -/
def opField (w : Word) : BitVec 4 := w.extractLsb' 12 4
/-- R72: `Z = w[11:9]`, must be zero. -/
def zField (w : Word) : BitVec 3 := w.extractLsb' 9 3
/-- R72, R74: `N = w[8]`, the `negative` flag of `DECANG`. -/
def nField (w : Word) : Bool := w.getLsbD 8
/-- R72, R74: `B = w[7:0]`, the byte operand, unsigned, not extended, not scaled, not shifted. -/
def bField (w : Word) : Byte := w.extractLsb' 0 8

/-- R72: the word with the given fields, `{OP, 0b000, N, B}`. -/
def c16 (op : BitVec 4) (n : Bool) (b : Byte) : Word := op ++ (0 : BitVec 3) ++ BitVec.ofBool n ++ b

/-! ## Decoding -/

/-- R76: why a word is illegal (the first of the reasons, in this order, log 17). -/
inductive Reject where
  /-- `OP` in {0x0, 0x5, 0x6, 0x7, 0x9 to 0xF}. -/
  | reservedOp
  /-- `Z` not zero. -/
  | zNotZero
  /-- `N = 1` in `SYNC`, `ABORT`, `DECLIN`, `FRAME`. -/
  | nNotZero
  /-- `B` not zero in `SYNC`, `ABORT`, `FRAME`. -/
  | bNotZero
  /-- `OP = 0x8` with `WITH_FRAME_LAYER = false`. -/
  | noFrameLayer
  deriving DecidableEq, Repr

/-- R76: an operation without operands: `N` and `B` must be zero. -/
def noOperands (w : Word) (i : Instr) : Except Reject Instr :=
  if nField w then .error .nNotZero else if bField w ≠ 0 then .error .bNotZero else .ok i

/-- R73, R75, R76: the operation a command word requests, in a build with the frame layer. -/
def decode (w : Word) : Except Reject Instr :=
  if opField w = 0x1 then (if zField w ≠ 0 then .error .zNotZero else noOperands w .sync)
  else if opField w = 0x2 then (if zField w ≠ 0 then .error .zNotZero else noOperands w .abort)
  else if opField w = 0x3 then
    (if zField w ≠ 0 then .error .zNotZero
     else if nField w then .error .nNotZero
     else .ok (.declin (bField w)))
  else if opField w = 0x4 then
    (if zField w ≠ 0 then .error .zNotZero else .ok (.decang (bField w) (nField w)))
  else if opField w = 0x8 then (if zField w ≠ 0 then .error .zNotZero else noOperands w .frame)
  else .error .reservedOp

/-- R76: the operation a command word requests in a build whose `WITH_FRAME_LAYER` is `frameLayer`. -/
def decodeFor (frameLayer : Bool) (w : Word) : Except Reject Instr :=
  match decode w with
  | .ok i    => if wellFormed frameLayer i then .ok i else .error .noFrameLayer
  | .error r => .error r

/-! ## Encoding -/

/-- R75: the command word of an operation, from the opcode map R73 and the format R72. -/
def encode (i : Instr) : Word :=
  match i with
  | .sync       => c16 0x1 false 0
  | .abort      => c16 0x2 false 0
  | .declin b   => c16 0x3 false b
  | .decang b n => c16 0x4 n b
  | .frame      => c16 0x8 false 0

/-- A row of the encoding table of R75. -/
structure Row where
  mask : Word
  bits : Word
  deriving DecidableEq, Repr

/-- R75: "A word `w` selects the row with `(w and mask) = match`". -/
def Row.selects (r : Row) (w : Word) : Bool := (w &&& r.mask) = r.bits

/-- R75: the row of an operation, `match` and `mask` as the table has them. -/
def rowOf (i : Instr) : Row :=
  match i with
  | .sync       => { mask := 0xFFFF, bits := 0x1000 }
  | .abort      => { mask := 0xFFFF, bits := 0x2000 }
  | .declin _   => { mask := 0xFF00, bits := 0x3000 }
  | .decang _ _ => { mask := 0xFE00, bits := 0x4000 }
  | .frame      => { mask := 0xFFFF, bits := 0x8000 }

/-- The decoder asked for a row of spec/opcode_table.json: `nbits` is the row's width, and every bit of the instruction
above it is zero; a number with bits beyond the 16 of a command word is no instruction (R72: one length). -/
def decodeTableWord (nbits w : Nat) : Option Instr :=
  if w % 2 ^ nbits < 2 ^ 16 then (decode (BitVec.ofNat 16 (w % 2 ^ nbits))).toOption else none

end Sys2Proof
end

