-- ==== Sys2Proof/Config.lean ====
section
/-! DEFINITION. Config.lean: the parameters of a build (00_scope.md R9 to R17), the record types of the wire and of the
stores, and the FREE VALUES: constants without a body, of which nothing can be proved.

A build's parameters are plain data (`Config`), carried unchanged by State (log 1), so that a claim about every state is
a claim about every build. The two parameters that are functions (`ANGLE_TABLE`, `HEADING_LAYOUT`) are named by data:
their default, or the `k`-th other choice, whose values are uninterpreted (log 2). -/

namespace Sys2Proof

/-- R34: "Vector2D: pair of floating-point coordinates `(x, y)`", 32 + 32 bits. -/
structure Vector2D where
  x : F32
  y : F32
  deriving DecidableEq, Repr, Inhabited

/-- R34: `RobotInfo`, "`{ id: u8, heading: f32 (radians), pos: Vector2D }`": 8 + 32 + 32 + 32 bits. -/
structure RobotInfo where
  id      : Byte
  heading : F32
  x       : F32
  y       : F32
  deriving DecidableEq, Repr, Inhabited

/-- R35: the document's `FieldSnapshot`: the clamped header and the two bounded lists. -/
structure Snapshot where
  nr  : Byte
  nb  : Byte
  rob : List RobotInfo
  bal : List Vector2D
  deriving DecidableEq, Repr, Inhabited

/-- R33: `PH`, 2 bits, the phase of the frame being decoded. -/
inductive Phase where
  | skip  -- `P_SKIP = 0`: discarding the marker pair
  | hdr   -- `P_HDR = 1`: reading the two header bytes
  | rob   -- `P_ROB = 2`: reading robot records
  | bal   -- `P_BAL = 3`: reading ball records
  deriving DecidableEq, Repr, Inhabited

/-- R12: `ANGLE_TABLE`, a model argument with a default. -/
inductive AngleTable where
  | amag            -- the default: the table of R110, computed by R98
  | exactDecimal    -- the other natural rounding, R106: the decimal constant exact, the product rounded once
  | other (k : Nat) -- any other table, uninterpreted (`Config.angleOther k`)
  deriving DecidableEq, Repr

/-- R15, R68: `HEADING_LAYOUT`, a model argument with a default. -/
inductive HeadingLayout where
  | signBit7        -- the default: `neg = byte1[7]`, `mag = zext_8(byte1[6:0])`, `byte2` ignored
  | other (k : Nat) -- any other layout, uninterpreted (`Config.headingOther k`)
  deriving DecidableEq, Repr

/-- R16, R66: `WITH_ROBOT_LIST`. The value `false` is to be refused "unless its user supplies the layout" (R66): the user
of the model says so by `absentConfirmed`, and then the layout is the one R66 gives (both header counts, no robot
records). -/
inductive RobotList where
  | present          -- `WITH_ROBOT_LIST = true`, the default
  | absentConfirmed  -- `WITH_ROBOT_LIST = false`, and the user confirms R66's layout
  | absentUnknown    -- `WITH_ROBOT_LIST = false`, no layout supplied
  deriving DecidableEq, Repr

/-- The parameters of a build, R12 to R16; fixed when the block is built (R154) and never changed by a step. -/
structure Config where
  /-- R5, R16: `WITH_FRAME_LAYER`. -/
  withFrameLayer : Bool
  /-- R16, R66: `WITH_ROBOT_LIST` and, for `false`, whether the layout is supplied. -/
  robotList      : RobotList
  /-- R14: `MAX_BALLS`, OPEN, a positive integer. It need not fit 8 bits (R116, R128). -/
  maxBalls       : Nat
  /-- R14, D15: `MAX_BALLS` is positive: a build with no balls cannot be written. -/
  maxBallsPos    : 0 < maxBalls := by decide
  /-- R12: `ANGLE_TABLE`. -/
  angleTable     : AngleTable
  /-- R15: `HEADING_LAYOUT`. -/
  headingLayout  : HeadingLayout
  deriving DecidableEq, Repr

/-- R16: the Boolean `WITH_ROBOT_LIST`. -/
def Config.withRobotList (c : Config) : Bool := c.robotList = .present

/-- R66: the wire layout of a frame is known: the robot list is present, or the user supplied the other layout. -/
def Config.layoutKnown (c : Config) : Bool := c.robotList ≠ .absentUnknown

/-- The build State.reset stands in: the defaults of R12, R15 and R16 and, DESIGN CHOICE (log 3), the values the test
vectors of 95_test_vectors.md use for the two parameters that have no default (`WITH_FRAME_LAYER = true`,
`MAX_BALLS = 60`). No statement rests on it: statements hold for every `Config`. -/
def Config.vectors : Config :=
  { withFrameLayer := true, robotList := .present, maxBalls := 60, angleTable := .amag, headingLayout := .signBit7 }

/-! ## The two function parameters, where a build does not take the default (log 2) -/

/-- R12: the magnitude the `k`-th other `ANGLE_TABLE` gives for a byte. No body: any table at all. -/
opaque Config.angleOther : Nat → Byte → F32

/-- R15: `(mag, neg)` of the `k`-th other `HEADING_LAYOUT` for record bytes 1 and 2. No body: any layout at all. -/
opaque Config.headingOther : Nat → Byte → Byte → Byte × Bool

/-! ## The environment's choices (R21) and the two supplies of them without end (R42, R139; log 6) -/

/-- R21, R139: whose turn it is. The environment's choices are free inputs; one supply of them is one interleaving. -/
inductive Turn where
  /-- The controller presents a command word: `CMD(w)`. -/
  | command (w : Word)
  /-- The source delivers its next byte, if the block pulls and there is one: `RX(b)`. -/
  | deliver
  /-- The source reports that the link is lost: `LL`. -/
  | linkLost
  /-- The controller asserts `RESET`. -/
  | reset
  deriving DecidableEq, Repr, Inhabited

/-- R42: the `n`-th byte of the `k`-th stream without end. No body: any infinite stream at all. -/
opaque Config.freeByte : Nat → Nat → Byte

/-- R139: the `n`-th turn of the `k`-th sequence of turns without end. No body: any interleaving at all. -/
opaque Config.freeTurn : Nat → Nat → Turn

/-- The command word presented where the `n`-th turn of the `k`-th such sequence is a delivery that cannot happen. -/
opaque Config.freeWord : Nat → Nat → Word

/-! ## Free values: what R151 says "become unspecified" on `RESET` (log 4)

Each is applied to a counter that `RESET` advances (State.fresh), so two resets need not agree. -/

opaque Config.freeLast     : Nat → Byte
opaque Config.freeNr       : Nat → Byte
opaque Config.freeNb       : Nat → Byte
opaque Config.freePhase    : Nat → Phase
opaque Config.freeCnt      : Nat → BitVec 3
opaque Config.freeIdx      : Nat → Byte
opaque Config.freeScratch  : Nat → Vector Byte 5
opaque Config.freeRobots   : Nat → Vector RobotInfo maxRobots
/-- The free value of `BAL[i]` (second argument: the index `i`). -/
opaque Config.freeBall     : Nat → Nat → Vector2D
opaque Config.freeSnapshot : Nat → Snapshot

end Sys2Proof
end

