-- ==== Sys2Proof/Machine/Feed.lean ====
section
/-! DEFINITION. Machine/Feed.lean: a sequence, finite or infinite, as plain data: what the environment still has to give
(R42: "a sequence of bytes, finite or infinite"; R139: every interleaving of events). The only access is to take the next
element: there is no address, no seek and no look-ahead (R42). -/

namespace Sys2Proof.Machine

open Sys2Proof

/-- What comes after the listed elements (log 6). -/
inductive Later (α : Type) where
  | ends            -- nothing more, for ever
  | again (p : List α) -- `p` over and over, without end (nothing more, if `p` is empty)
  | free (k n : Nat)   -- the `k`-th sequence without end, from its element `n` on; its elements are free values
  deriving DecidableEq, Repr

/-- A sequence: the listed elements, in order, and then what comes later. -/
structure Feed (α : Type) where
  listed : List α
  later  : Later α
  deriving DecidableEq, Repr

variable {α : Type}

/-- A finite sequence. -/
def Feed.ofList (xs : List α) : Feed α := { listed := xs, later := .ends }

/-- The sequence with one more element before it. -/
def Feed.push (x : α) (f : Feed α) : Feed α := { f with listed := x :: f.listed }

/-- Take the next element; none, if the sequence is at its end. `free k n` is element `n` of the `k`-th free sequence. -/
def Feed.next (free : Nat → Nat → α) (f : Feed α) : Option (α × Feed α) :=
  match f.listed with
  | x :: xs => some (x, { f with listed := xs })
  | []      =>
    match f.later with
    | .ends     => none
    | .again p  =>
      match p with
      | []      => none
      | x :: xs => some (x, { listed := xs, later := .again p })
    | .free k n => some (free k n, { listed := [], later := .free k (n + 1) })

/-- `f` begins with the elements `xs`, in order, and goes on as `g`. -/
def Feed.Starts (free : Nat → Nat → α) (f : Feed α) (xs : List α) (g : Feed α) : Prop :=
  match xs with
  | []      => f = g
  | x :: xs => ∃ h, f.next free = some (x, h) ∧ Feed.Starts free h xs g

/-- R44, R48: the next byte of a stream, and the stream without it. -/
def nextByte (f : Feed Byte) : Option (Byte × Feed Byte) := f.next Config.freeByte

/-- The next turn of the environment, and the turns after it. -/
def nextTurn (f : Feed Turn) : Option (Turn × Feed Turn) := f.next Config.freeTurn

/-- The next bytes of the stream `f` are `bs`, and the stream goes on as `g`. -/
abbrev Delivers (f : Feed Byte) (bs : List Byte) (g : Feed Byte) : Prop := f.Starts Config.freeByte bs g

/-- The next turns of `f` are `ts`, and they go on as `g`. -/
abbrev Presents (f : Feed Turn) (ts : List Turn) (g : Feed Turn) : Prop := f.Starts Config.freeTurn ts g

end Sys2Proof.Machine
end

