-- ==== Sys2Proof/Machine/State.lean ====
section
/-! DEFINITION. Machine/State.lean: every piece of state the spec gives the block (10_state.md), as plain data, with the
environment's two supplies beside it, the reasons a step can stop, and the state after reset (R38). -/

namespace Sys2Proof.Machine

open Sys2Proof

/-- R23: `ST`, 3 bits, the control state; codes 5 to 7 are never taken. -/
inductive St where
  | unsynced  -- `UNSYNCED = 0`
  | hunt      -- `HUNT = 1`
  | synced    -- `SYNCED = 2`
  | decoding  -- `DECODING = 3`
  | faulted   -- `FAULTED = 4`
  deriving DecidableEq, Repr

/-- R29, R131: `CAUSE`, 2 bits. Codes 2 and 3 are assigned and never stored. -/
inductive Cause where
  | none             -- 0
  | linkLost         -- 1
  | oversizeCount    -- 2
  | malformedRecord  -- 3
  deriving DecidableEq, Repr

/-- R40: the outputs of a step. `res` is `some r` exactly when `res_valid = 1`, and then `res[31:0] = r` (log 14). -/
structure Outputs where
  res     : Option F32
  refused : Bool
  evSync  : Bool
  evFrame : Bool
  evFault : Bool
  deriving DecidableEq, Repr

/-- R40: a step that outputs nothing. -/
def Outputs.quiet : Outputs := { res := none, refused := false, evSync := false, evFrame := false, evFault := false }

/-- R32 to R35: the state of the frame layer (exists only with `WITH_FRAME_LAYER = true`; without it no step reads or
writes it, log 15). -/
structure FrameLayer where
  /-- R32: `JS`, the marker pair that opens the next frame is already consumed. -/
  js       : Bool
  /-- R32: `NR`, the clamped `numRobots` of the frame being decoded. -/
  nr       : Byte
  /-- R32: `NB`, the clamped `numBalls`. -/
  nb       : Byte
  /-- R33: `PH`. -/
  ph       : Phase
  /-- R33: `CNT`, 3 bits, bytes of the current unit already gathered. -/
  cnt      : BitVec 3
  /-- R33: `IDX`, 8 bits, the entity being read. -/
  idx      : Byte
  /-- R33: `SCR[0..4]`, the scratch buffer. -/
  scr      : Vector Byte 5
  /-- R34: `ROB[0..MAX_ROBOTS-1]`. -/
  rob      : Vector RobotInfo maxRobots
  /-- R34: `BAL[0..MAX_BALLS-1]`; its length is `MAX_BALLS` in every reachable state (Safety.lean). -/
  bal      : List Vector2D
  /-- R35: `PUB_VALID`. -/
  pubValid : Bool
  /-- R35: `PUB`. -/
  pub      : Snapshot
  deriving DecidableEq, Repr

/-- R31: the ghost variables, unbounded naturals; no rule's behaviour reads them. -/
structure Ghosts where
  /-- `CONSUMED`: bytes taken from the source since reset. -/
  consumed    : Nat
  /-- `SYNC_EVENTS`: transitions `HUNT -> SYNCED` since reset. -/
  syncEvents  : Nat
  /-- `PUB_COUNT`: snapshots published since reset. -/
  pubCount    : Nat
  /-- `HUNT_START`: `CONSUMED` when the current or latest hunt began. -/
  huntStart   : Nat
  /-- The number of `SYNC` commands accepted since reset, which R39 speaks of (the model's own ghost, log 5). -/
  syncAccepts : Nat
  deriving DecidableEq, Repr

/-- R21, R22, R42: the environment: not state of the block, but the inputs its steps will read (log 6). -/
structure Env where
  /-- The turns still to come, the next one first. -/
  turns  : Feed Turn
  /-- The bytes the source has not yet delivered, in stream order, finite or infinite. -/
  stream : Feed Byte
  deriving DecidableEq, Repr

/-- The whole machine. -/
structure State where
  /-- The build's parameters (R9 to R17); no step changes them. -/
  cfg   : Config
  /-- R23: `ST`. -/
  st    : St
  /-- R24: `LAST`, the last byte consumed in the current hunt. -/
  last  : Byte
  /-- R25: `LV`, `LAST` is valid. -/
  lv    : Bool
  /-- R29: `CAUSE`. -/
  cause : Cause
  /-- R32 to R35. -/
  frame : FrameLayer
  /-- R31. -/
  ghost : Ghosts
  /-- R40: the outputs of the latest step. -/
  out   : Outputs
  /-- The environment's inputs to come. -/
  env   : Env
  /-- The model's own field: how many times free values have been drawn (log 4). -/
  fresh : Nat
  deriving DecidableEq, Repr

/-- Why the machine stops with no next state. None of these is the spec's `LinkLost`, which is a next state with
`ST = FAULTED` (R134). -/
inductive Fault where
  /-- Raised by `step` when no turn to come is an enabled event: the block is STUCK, waiting for an event that never comes
  (R43, R89, R143: "stuck, not faulted"; 93_implementation_defined.md I18; log 11). Safe: the hardware waits. -/
  | stuck
  /-- Raised by `onEvent` when a byte is presented in a state in which `RX` is not enabled (R36: it "cannot occur there").
  `step` never raises it (log 13). Safe: it stops where the spec says there is no event. -/
  | rxNotEnabled
  /-- Raised by the decode steps when `PH` and `CNT` are a pair no rule of R113 to R120 names; R39 says no reachable state
  has one (log 13). Safe: it stops. -/
  | noRule
  deriving DecidableEq, Repr

/-- Why the model gives no meaning. The spec's own "refused" output is NOT one of these: it is a next state (log 7). -/
inductive Refusal where
  /-- An instruction whose meaning is not modelled yet; no arm of `exec` answers it now. Safe: it stops. -/
  | notModelled (mnemonic : String)
  /-- Raised by `FRAME` when `WITH_ROBOT_LIST = false` and no layout was supplied (R66: "a model should treat
  `WITH_ROBOT_LIST = false` as *refused* unless its user supplies the layout"; log 12). Safe: it stops. -/
  | robotListLayoutUnknown
  deriving DecidableEq, Repr

/-! ## The state after reset -/

/-- Every register of the frame layer after reset in a build `c`. `JS` and `PUB_VALID` are the spec's (R38); every other
value is "unspecified" there and zero here, DESIGN CHOICE (log 8). -/
def FrameLayer.reset (c : Config) : FrameLayer :=
  { js := false, nr := 0, nb := 0, ph := .skip, cnt := 0, idx := 0,
    scr := Vector.replicate 5 0,
    rob := Vector.replicate maxRobots { id := 0, heading := 0, x := 0, y := 0 },
    bal := List.replicate c.maxBalls { x := 0, y := 0 },
    pubValid := false,
    pub := { nr := 0, nb := 0, rob := [], bal := [] } }

/-- R38: the ghost variables after reset. -/
def Ghosts.reset : Ghosts := { consumed := 0, syncEvents := 0, pubCount := 0, huntStart := 0, syncAccepts := 0 }

/-- R38: the machine after reset in a build `c`, with the environment `e` still to come. `LAST` is "unspecified" there and
zero here, DESIGN CHOICE (log 8). -/
def State.resetIn (c : Config) (e : Env) : State :=
  { cfg := c, st := .unsynced, last := 0, lv := false, cause := .none, frame := FrameLayer.reset c,
    ghost := Ghosts.reset, out := Outputs.quiet, env := e, fresh := 0 }

/-- R38: the machine right after reset, nothing presented and nothing in the stream. -/
def State.reset : State := State.resetIn Config.vectors { turns := Feed.ofList [], stream := Feed.ofList [] }

end Sys2Proof.Machine
end

