-- ==== Sys2Proof/Machine/Flags.lean ====
section
/-! DEFINITION. Machine/Flags.lean: everything the spec computes from the control state: the codes of the level outputs
(R23, R29, R30, R33), the two status conditions (R28), which event is enabled (R36), and which command is performed in
which state (R77). The block has no arithmetic flags (R28). -/

namespace Sys2Proof.Machine

open Sys2Proof

/-- R23: the code of `ST` on the status output `st[2:0]`. -/
def St.code (x : St) : BitVec 3 :=
  match x with
  | .unsynced => 0
  | .hunt     => 1
  | .synced   => 2
  | .decoding => 3
  | .faulted  => 4

/-- R29, R131: the code of `CAUSE` on the status output `cause[1:0]`. -/
def Cause.code (x : Cause) : BitVec 2 :=
  match x with
  | .none            => 0
  | .linkLost        => 1
  | .oversizeCount   => 2
  | .malformedRecord => 3

/-- R33: the code of `PH`. -/
def phaseCode (x : Phase) : BitVec 2 :=
  match x with
  | .skip => 0
  | .hdr  => 1
  | .rob  => 2
  | .bal  => 3

/-- R30: the level output `st[2:0]`. -/
def State.stOut (s : State) : BitVec 3 := s.st.code

/-- R30: the level output `cause[1:0]`. -/
def State.causeOut (s : State) : BitVec 2 := s.cause.code

/-- R28: `synced = (ST = SYNCED or ST = DECODING)`. -/
def St.isSynced (x : St) : Bool :=
  match x with
  | .unsynced => false
  | .hunt     => false
  | .synced   => true
  | .decoding => true
  | .faulted  => false

/-- R28: `fault = (ST = FAULTED)`. -/
def St.isFaulted (x : St) : Bool :=
  match x with
  | .unsynced => false
  | .hunt     => false
  | .synced   => false
  | .decoding => false
  | .faulted  => true

/-- R28: the status condition `synced`, a function of `ST`, not separate storage. -/
def State.syncedFlag (s : State) : Bool := s.st.isSynced

/-- R28: the status condition `fault`. -/
def State.faultFlag (s : State) : Bool := s.st.isFaulted

/-- R40: `res_valid`. -/
def Outputs.resValid (o : Outputs) : Bool := o.res.isSome

/-- R36, R43: the block pulls bytes, so `RX` is enabled, exactly in `HUNT` and `DECODING`. -/
def St.pulls (x : St) : Bool :=
  match x with
  | .unsynced => false
  | .hunt     => true
  | .synced   => false
  | .decoding => true
  | .faulted  => false

/-- R25: "previous byte was a marker", `PM = (LV = 1 and LAST = 0xFF)`. -/
def State.pm (s : State) : Bool := s.lv && s.last = syncMarker

/-- R77: the table of which legal command is performed in which state. -/
def performedIn (i : Instr) (x : St) : Bool :=
  match i with
  | .sync       => x = .unsynced
  | .abort      => x ≠ .faulted
  | .declin _   => true
  | .decang _ _ => true
  | .frame      => x = .synced

/-- R35, R56: what a reader of the published snapshot may use: `PUB`, once `PUB_VALID = 1`. Reading changes nothing. -/
def State.readSnapshot (s : State) : Option Snapshot := if s.frame.pubValid then some s.frame.pub else none

end Sys2Proof.Machine
end

