-- ==== Sys2Proof/Machine/Operands.lean ====
section
/-! DEFINITION. Machine/Operands.lean: how wire bytes become operands: the clamp of a header count (R115, R116) and the
extraction of a heading's magnitude and sign flag (R15, R68). The command word's operands are Decode.lean's (R74). -/

namespace Sys2Proof.Machine

open Sys2Proof

/-- R115, R116: a header count clamped to a capacity: `min` over the naturals, never wrapping, never increasing the count.
The result fits 8 bits because it is at most the byte. -/
def clamp (count : Byte) (capacity : Nat) : Byte := BitVec.ofNat 8 (min count.toNat capacity)

/-- R68: the default `HEADING_LAYOUT`: from record byte 1, `neg = byte1[7]`, `mag = zext_8(byte1[6:0])`; byte 2 is not
used (R69). -/
def headingSignBit7 (byte1 : Byte) : Byte × Bool := ((byte1.extractLsb' 0 7).setWidth 8, byte1.getLsbD 7)

/-- R15: `(mag, neg) = HEADING_LAYOUT(byte1, byte2)` in the build's layout. -/
def headingOf (l : HeadingLayout) (byte1 byte2 : Byte) : Byte × Bool :=
  match l with
  | .signBit7 => headingSignBit7 byte1
  | .other k  => Config.headingOther k byte1 byte2

end Sys2Proof.Machine
end

