-- ==== Sys2Proof/Machine/Ops.lean ====
section
/-! DEFINITION. Machine/Ops.lean: the operations the meanings share: refusing a command (R78), taking a byte (R45),
dropping work in progress (R90, R134), taking `LinkLost` (R134), `RESET` (R151), gathering a unit in the scratch buffer
(R46), writing the working lists (R53, R54), publishing and completing a frame (R122, R124).

There is no return from the fault: `FAULTED` is left only by `RESET` (R140). -/

namespace Sys2Proof.Machine

open Sys2Proof

/-- R40: the state with this step's outputs in place of the latest step's. -/
def State.withOut (s : State) (o : Outputs) : State := { s with out := o }

/-- R78: a refused command: no state changes, no byte is taken, no result, and the step's `refused` output is set. -/
def refuse (s : State) : State := s.withOut { Outputs.quiet with refused := true }

/-- R45: `RxByte()`: one byte of the stream is accepted, `CONSUMED <- CONSUMED + 1`; no output yet. -/
def rxByte (s : State) : State :=
  { s with ghost := { s.ghost with consumed := s.ghost.consumed + 1 }, out := Outputs.quiet }

/-- R90, R134: `JS <- 0 ; CNT <- 0`, in a build that has the frame layer: the bytes gathered in `SCR` are discarded. -/
def dropFrame (s : State) : State :=
  { s with frame := { s.frame with
      js  := if s.cfg.withFrameLayer then false else s.frame.js,
      cnt := if s.cfg.withFrameLayer then 0 else s.frame.cnt } }

/-- R134: taking `LinkLost`, the block's only fault. There is no vector, no saved state and no handler: the fault records
`CAUSE = 1` and nothing else (R135). In `FAULTED` it changes nothing. -/
def takeLinkLost (s : State) : State :=
  if s.st = .faulted then s.withOut Outputs.quiet
  else
    { dropFrame s with
      st := .faulted, cause := .linkLost, lv := false, out := { Outputs.quiet with evFault := true } }

/-- R151: the frame layer on `RESET`: `JS` and `PUB_VALID` are cleared, all the rest becomes unspecified (free values, one
draw for each `RESET`). `BAL` keeps its fixed size (R53). -/
def FrameLayer.unspecified (c : Config) (n : Nat) : FrameLayer :=
  { js := false, nr := Config.freeNr n, nb := Config.freeNb n, ph := Config.freePhase n, cnt := Config.freeCnt n,
    idx := Config.freeIdx n, scr := Config.freeScratch n, rob := Config.freeRobots n,
    bal := (List.range c.maxBalls).map (Config.freeBall n), pubValid := false, pub := Config.freeSnapshot n }

/-- R151: `RESET`, from any state. The build, the stream and the turns to come are not the block's state (R22). -/
def takeReset (s : State) : State :=
  { s with
    st := .unsynced, last := Config.freeLast s.fresh, lv := false, cause := .none,
    frame := if s.cfg.withFrameLayer then FrameLayer.unspecified s.cfg s.fresh else s.frame,
    ghost := Ghosts.reset, out := Outputs.quiet, fresh := s.fresh + 1 }

/-- R46, R114, R117, R119: `SCR[CNT] <- b ; CNT <- CNT + 1`. -/
def gather (b : Byte) (s : State) : State :=
  { s with frame := { s.frame with
      scr := s.frame.scr.setIfInBounds s.frame.cnt.toNat b, cnt := s.frame.cnt + 1 } }

/-- R118: `ROB[IDX] <- rec`, and never past the capacity (R54, log 19). -/
def storeRobot (r : RobotInfo) (s : State) : State :=
  { s with frame := { s.frame with rob := s.frame.rob.setIfInBounds s.frame.idx.toNat r } }

/-- R120: `BAL[IDX] <- v`, and never past the capacity (R54). -/
def storeBall (v : Vector2D) (s : State) : State :=
  { s with frame := { s.frame with bal := s.frame.bal.set s.frame.idx.toNat v } }

/-- R33: the decode sequencing registers go to the start of a phase or of the next entity. -/
def goTo (p : Phase) (i : Byte) (s : State) : State :=
  { s with frame := { s.frame with ph := p, cnt := 0, idx := i } }

/-- R122: the snapshot a publish would make of the counts and working lists as they stand: copies of `ROB[0..NR-1]` (empty
with `WITH_ROBOT_LIST = false`) and `BAL[0..NB-1]`. -/
def snapshotOf (s : State) : Snapshot :=
  { nr := s.frame.nr, nb := s.frame.nb,
    rob := if s.cfg.withRobotList then s.frame.rob.toList.take s.frame.nr.toNat else [],
    bal := s.frame.bal.take s.frame.nb.toNat }

/-- R122, R124: `finish`: publish the frame as one indivisible update and return to `SYNCED` with `JS = 0`. -/
def finish (s : State) : State :=
  { s with
    st := .synced,
    frame := { s.frame with js := false, cnt := 0, pubValid := true, pub := snapshotOf s },
    ghost := { s.ghost with pubCount := s.ghost.pubCount + 1 },
    out := { Outputs.quiet with evFrame := true } }

end Sys2Proof.Machine
end

