-- ==== Sys2Proof/Machine/Codec.lean ====
section
/-! DEFINITION. Machine/Codec.lean: CODEC (41_codec.md): the binary32 format (R18, R97), the functions `LIN` (R99) and
`AMAG` (R98), the angular decode with its sign flag (R100, R101), and the meanings of `DECLIN` and `DECANG`. -/

namespace Sys2Proof.Machine

open Sys2Proof

/-! ## binary32 (R18) -/

/-- R18: the pattern `{s, e[7:0], m[22:0]}`. -/
def packF32 (neg : Bool) (e m : Nat) : F32 := BitVec.ofBool neg ++ BitVec.ofNat 8 e ++ BitVec.ofNat 23 m

/-- R18: the sign bit. -/
def f32Sign (x : F32) : Bool := x.getLsbD 31
/-- R18: the exponent field. -/
def f32Exp (x : F32) : Nat := (x.extractLsb' 23 8).toNat
/-- R18: the fraction field. -/
def f32Frac (x : F32) : Nat := (x.extractLsb' 0 23).toNat

/-- R18, R104: the patterns whose value R18 gives: a zero of either sign or a normal number. -/
abbrev F32Plain (x : F32) : Prop := (f32Exp x = 0 ∧ f32Frac x = 0) ∨ (1 ≤ f32Exp x ∧ f32Exp x ≤ 254)

/-- R18: the magnitude of a plain pattern in units of `2^-150`: `2^(e-127) * (1 + m * 2^-23)` is `(2^23 + m) * 2^e` of
them; 0 for `e = 0, m = 0`. -/
def f32Units (x : F32) : Nat := if f32Exp x = 0 ∧ f32Frac x = 0 then 0 else (2 ^ 23 + f32Frac x) * 2 ^ f32Exp x

/-- R18: the value of a plain pattern, `(-1)^s` times its magnitude. -/
def f32Value (x : F32) : ℚ := (if f32Sign x then -1 else 1) * ((f32Units x : ℚ) / (2 : ℚ) ^ 150)

/-- R18: `x` is `RN32(q)`: the binary32 number nearest `q`, and of two equally near ones the one with even significand. -/
abbrev IsRN32 (q : ℚ) (x : F32) : Prop :=
  F32Plain x ∧ ∀ y : F32, F32Plain y →
    |f32Value x - q| ≤ |f32Value y - q| ∧
    (|f32Value x - q| = |f32Value y - q| → f32Value x ≠ f32Value y → f32Frac x % 2 = 0)

/-- R18: the number of bits of a natural (the position of its leading 1, counted from 1; 0 for 0). -/
def bitLength (n : Nat) : Nat := if n = 0 then 0 else Nat.log2 n + 1

/-! ## The linear encoding -/

/-- R99: `LIN(b)`, the pattern of exactly `b / 2`. -/
def lin (b : Byte) : F32 :=
  if b.toNat = 0 then 0
  else packF32 false (bitLength b.toNat + 125) ((b.toNat <<< (24 - bitLength b.toNat)) % 2 ^ 23)

/-! ## The angular encoding -/

/-- R97: the significand of `K32 = 13280549 * 2^-30`, the binary32 number nearest `ANGLE_SCALE`. -/
def k32Significand : Nat := 13280549

/-- R97: `K32` as a number. -/
def k32Value : ℚ := 13280549 / 2 ^ 30

/-- R98: the 24-bit significand `q` and the bit length `L` of a product `P` of at least 24 bits, rounded once to nearest,
ties to even. -/
def round24 (p : Nat) : Nat × Nat :=
  let l := bitLength p
  if l = 24 then (p, l)
  else
    let s := l - 24
    let q := p >>> s
    let r := p % 2 ^ s
    let h := 2 ^ (s - 1)
    let q' := if r > h ∨ (r = h ∧ q % 2 = 1) then q + 1 else q
    if q' = 2 ^ 24 then (2 ^ 23, l + 1) else (q', l)

/-- R98: `AMAG(b) = RN32(b * K32)`, the default `ANGLE_TABLE` (R110). -/
def amag (b : Byte) : F32 :=
  if b.toNat = 0 then 0
  else packF32 false ((round24 (b.toNat * k32Significand)).2 + 96) ((round24 (b.toNat * k32Significand)).1 - 2 ^ 23)

/-- R11: the decimal literal `ANGLE_SCALE = 0.012368475`, in units of `10^-9`. -/
def angleScaleNano : Nat := 12368475

/-- R106: the biased exponent `e` and the 24-bit significand of `n / d` rounded once to nearest, ties to even, for a ratio
between `2^-10` and `2^23`; the value is `q * 2^(e-150)`. -/
def roundRatio (n d : Nat) : Nat × Nat :=
  let e := Nat.log2 (n * 2 ^ 10 / d)
  let m := n * 2 ^ (33 - e)
  let q := if 2 * (m % d) > d ∨ (2 * (m % d) = d ∧ (m / d) % 2 = 1) then m / d + 1 else m / d
  if q = 2 ^ 24 then (e + 118, 2 ^ 23) else (e + 117, q)

/-- R106: the rounding alternative `RN32(b * 0.012368475)`, the decimal constant exact. -/
def amagExactDecimal (b : Byte) : F32 :=
  if b.toNat = 0 then 0
  else packF32 false (roundRatio (b.toNat * angleScaleNano) (10 ^ 9)).1
    ((roundRatio (b.toNat * angleScaleNano) (10 ^ 9)).2 - 2 ^ 23)

/-- R12: `ANGLE_TABLE(b)` in the build's table. -/
def angleMag (t : AngleTable) (b : Byte) : F32 :=
  match t with
  | .amag         => amag b
  | .exactDecimal => amagExactDecimal b
  | .other k      => Config.angleOther k b

/-- R100, R101: the angular decode, `{ n, ANGLE_TABLE(b)[30:0] }`: the sign bit of the result is always the flag. -/
def angle (t : AngleTable) (b : Byte) (neg : Bool) : F32 := BitVec.ofBool neg ++ (angleMag t b).extractLsb' 0 31

/-! ## The two commands -/

/-- R96: a codec operation delivers its result on `res` with `res_valid = 1` and changes no state. -/
def deliver (r : F32) (s : State) : State := s.withOut { Outputs.quiet with res := some r }

/-- R99: `DECLIN b`, in any `ST`. -/
def execDeclin (b : Byte) (s : State) : Host.Outcome State Fault Refusal := .next (deliver (lin b) s)

/-- R100: `DECANG b, n`, in any `ST`. -/
def execDecang (b : Byte) (n : Bool) (s : State) : Host.Outcome State Fault Refusal :=
  .next (deliver (angle s.cfg.angleTable b n) s)

end Sys2Proof.Machine
end

