-- ==== Sys2Proof/Machine/Frame.lean ====
section
/-! DEFINITION. Machine/Frame.lean: the frame layer (42_frame_layer.md): the meaning of `FRAME` (R112) and the steps a
delivered byte causes while a frame is decoded (R113 to R120), each ending, where it completes the frame, in `finish`
(R122, R124). -/

namespace Sys2Proof.Machine

open Sys2Proof

/-- R112: `FRAME`: start the decode of one frame; the marker pair is skipped first unless it is already consumed (`JS`).
Performed only in `SYNCED` (R77), and only in a build with the frame layer (R76). With `WITH_ROBOT_LIST = false` and no
layout supplied the model gives it no meaning (R66). -/
def execFrame (s : State) : Host.Outcome State Fault Refusal :=
  if s.st = .synced ∧ s.cfg.withFrameLayer = true then
    if s.cfg.layoutKnown then
      .next { goTo (if s.frame.js then .hdr else .skip) 0 s with st := .decoding, out := Outputs.quiet }
    else .refused .robotListLayoutUnknown
  else .next (refuse s)

/-- R113: skip phase: the two bytes of the marker pair are discarded, not stored and not compared. -/
def skipByte (s : State) : State :=
  { s with frame := { s.frame with
      cnt := if s.frame.cnt = 0 then 1 else 0,
      ph  := if s.frame.cnt = 0 then s.frame.ph else .hdr } }

/-- R115: the header complete: both counts clamped and stored. -/
def storeHeader (b : Byte) (s : State) : State :=
  { s with frame := { s.frame with
      nr := clamp s.frame.scr[0] maxRobots, nb := clamp b s.cfg.maxBalls, cnt := 0, idx := 0 } }

/-- R115: the number of robot records to read, `nr_read`. -/
def robotsToRead (s : State) : Nat := if s.cfg.withRobotList then s.frame.nr.toNat else 0

/-- R115, R118: no robot record is left to read: go on to the balls, or finish. -/
def afterRobots (s : State) : State := if s.frame.nb.toNat > 0 then goTo .bal 0 s else finish s

/-- R115: header phase, second byte: clamp and choose the next phase. -/
def headerByte (b : Byte) (s : State) : State :=
  if robotsToRead (storeHeader b s) > 0 then goTo .rob 0 (storeHeader b s) else afterRobots (storeHeader b s)

/-- R118: the robot record whose first four bytes are gathered and whose last byte is `b`. -/
def robotRecord (b : Byte) (s : State) : RobotInfo :=
  { id      := s.frame.scr[0],
    heading := angle s.cfg.angleTable (headingOf s.cfg.headingLayout s.frame.scr[1] s.frame.scr[2]).1
                 (headingOf s.cfg.headingLayout s.frame.scr[1] s.frame.scr[2]).2,
    x       := lin s.frame.scr[3],
    y       := lin b }

/-- R118: robot phase, record complete: decode, store, go on. `IDX` is left as it is when the frame finishes. -/
def robotByte (b : Byte) (s : State) : State :=
  if s.frame.idx.toNat + 1 < s.frame.nr.toNat then
    goTo .rob (s.frame.idx + 1) (storeRobot (robotRecord b s) s)
  else afterRobots (storeRobot (robotRecord b s) s)

/-- R120: the ball record whose first byte is gathered and whose second is `b`. -/
def ballRecord (b : Byte) (s : State) : Vector2D := { x := lin s.frame.scr[0], y := lin b }

/-- R120: ball phase, record complete: decode, store, go on. -/
def ballByte (b : Byte) (s : State) : State :=
  if s.frame.idx.toNat + 1 < s.frame.nb.toNat then
    goTo .bal (s.frame.idx + 1) (storeBall (ballRecord b s) s)
  else finish (storeBall (ballRecord b s) s)

/-- R113 to R120: the step on `RX(b)` with `ST = DECODING`, by `PH` and `CNT`. A pair no rule names (unreachable, R39)
stops. -/
def decodeStep (b : Byte) (s : State) : Host.Outcome State Fault Refusal :=
  match s.frame.ph with
  | .skip => .next (skipByte (rxByte s))
  | .hdr  =>
    if s.frame.cnt = 0 then .next (gather b (rxByte s))
    else if s.frame.cnt = 1 then .next (headerByte b (rxByte s))
    else .fault .noRule
  | .rob  =>
    if s.frame.cnt.toNat < 4 then .next (gather b (rxByte s))
    else if s.frame.cnt = 4 then .next (robotByte b (rxByte s))
    else .fault .noRule
  | .bal  =>
    if s.frame.cnt = 0 then .next (gather b (rxByte s))
    else if s.frame.cnt = 1 then .next (ballByte b (rxByte s))
    else .fault .noRule

end Sys2Proof.Machine
end

