-- ==== Sys2Proof/Machine/Sync.lean ====
section
/-! DEFINITION. Machine/Sync.lean: FSYNC (40_sync.md): the meanings of `SYNC` (R84) and `ABORT` (R90), and the step a
delivered byte causes during a hunt (R86). -/

namespace Sys2Proof.Machine

open Sys2Proof

/-- R84: `SYNC`: start a hunt with an empty window (R85). Performed only in `UNSYNCED` (R77). -/
def execSync (s : State) : Host.Outcome State Fault Refusal :=
  if s.st = .unsynced then
    .next { s with
      st := .hunt, lv := false,
      ghost := { s.ghost with huntStart := s.ghost.consumed, syncAccepts := s.ghost.syncAccepts + 1 },
      out := Outputs.quiet }
  else .next (refuse s)

/-- R90: `ABORT`: give up whatever is in progress and return to `UNSYNCED`. Refused in `FAULTED` (R77). -/
def execAbort (s : State) : Host.Outcome State Fault Refusal :=
  if s.st = .faulted then .next (refuse s)
  else .next { dropFrame s with st := .unsynced, lv := false, out := Outputs.quiet }

/-- R86: the sync event: the pair is found. `LAST` and `LV` are left as they are; `JS <- 1` in the frame layer. -/
def syncEvent (s : State) : State :=
  { s with
    st := .synced,
    frame := { s.frame with js := if s.cfg.withFrameLayer then true else s.frame.js },
    ghost := { s.ghost with syncEvents := s.ghost.syncEvents + 1 },
    out := { Outputs.quiet with evSync := true } }

/-- R86: the step on `RX(b)` with `ST = HUNT`: both bytes of the window equal `SYNC_MARKER`, or the window shifts. -/
def huntStep (b : Byte) (s : State) : State :=
  if s.lv = true ∧ s.last = syncMarker ∧ b = syncMarker then syncEvent (rxByte s)
  else { rxByte s with last := b, lv := true }

end Sys2Proof.Machine
end

