-- ==== Sys2Proof/Machine/Dispatch.lean ====
section
/-! DEFINITION. Machine/Dispatch.lean: the meaning of each operation, one arm per constructor (R73, R77). -/

namespace Sys2Proof.Machine

open Sys2Proof

def exec (i : Instr) (s : State) : Host.Outcome State Fault Refusal :=
  match i with
  | .sync => Sys2Proof.Machine.execSync s
  | .abort => Sys2Proof.Machine.execAbort s
  | .declin b => Sys2Proof.Machine.execDeclin b s
  | .decang b n => Sys2Proof.Machine.execDecang b n s
  | .frame => Sys2Proof.Machine.execFrame s

end Sys2Proof.Machine
end

