-- ==== Sys2Proof/Machine/Events.lean ====
section
/-! DEFINITION. Machine/Events.lean: the four events that cause a step (R19), the effect of each as a function of the
state, and how the next event comes from the environment's turns (R21, R36, R42 to R44). -/

namespace Sys2Proof.Machine

open Sys2Proof

/-- R19: "a step of the block is caused by exactly one event". -/
inductive Event where
  /-- `CMD(w)`: the controller presents the command word `w`. -/
  | command (w : Word)
  /-- `RX(b)`: the byte source delivers byte `b` to a block that is pulling. -/
  | rx (b : Byte)
  /-- `LL`: the byte source reports that the link is lost. -/
  | linkLost
  /-- `RESET`. -/
  | reset
  deriving DecidableEq, Repr

/-- R76, R77, R78: the event `CMD(w)`: an illegal word is refused; a legal one is performed or refused by its meaning. -/
def onCommand (w : Word) (s : State) : Host.Outcome State Fault Refusal :=
  match decodeFor s.cfg.withFrameLayer w with
  | .ok i    => exec i s
  | .error _ => .next (refuse s)

/-- R36, R86, R113 to R120: the event `RX(b)`, enabled only while the block pulls. -/
def onRx (b : Byte) (s : State) : Host.Outcome State Fault Refusal :=
  match s.st with
  | .unsynced => .fault .rxNotEnabled
  | .hunt     => .next (huntStep b s)
  | .synced   => .fault .rxNotEnabled
  | .decoding => decodeStep b s
  | .faulted  => .fault .rxNotEnabled

/-- R19: the effect of an event. -/
def onEvent (e : Event) (s : State) : Host.Outcome State Fault Refusal :=
  match e with
  | .command w => onCommand w s
  | .rx b      => onRx b s
  | .linkLost  => .next (takeLinkLost s)
  | .reset     => .next (takeReset s)

/-- R36, R44: the byte a delivery would bring now: the next of the stream, if the block pulls. -/
def deliverable (pulls : Bool) (bytes : Feed Byte) : Option (Byte × Feed Byte) := if pulls then nextByte bytes else none

/-- R36, R43, R44: the event a turn is, and the stream it leaves. A delivery with the block not pulling, or with no byte to
come, is no event: it passes, and the byte stays with the source. -/
def turnEvent (pulls : Bool) (bytes : Feed Byte) (x : Turn) : Option (Event × Feed Byte) :=
  match x with
  | .command w => some (.command w, bytes)
  | .linkLost  => some (.linkLost, bytes)
  | .reset     => some (.reset, bytes)
  | .deliver   =>
    match deliverable pulls bytes with
    | some (b, rest) => some (.rx b, rest)
    | none           => none

/-- The first of the listed turns that is an event, the turns listed after it and the stream it leaves. -/
def firstEvent (pulls : Bool) (bytes : Feed Byte) (turns : List Turn) : Option (Event × List Turn × Feed Byte) :=
  match turns with
  | []      => none
  | x :: xs =>
    match turnEvent pulls bytes x with
    | some (e, rest) => some (e, xs, rest)
    | none           => firstEvent pulls bytes xs

/-- The first event when no listed turn is one. Turns that come again are gone through once: if none of them is an event
now, none ever is, since nothing changes while they pass. A free turn is always an event (log 6): where it is a delivery
that cannot happen, the controller presents a free word in its place. -/
def laterEvent (pulls : Bool) (bytes : Feed Byte) (l : Later Turn) : Option (Event × Env) :=
  match l with
  | .ends     => none
  | .again p  =>
    match firstEvent pulls bytes p with
    | some (e, xs, rest) => some (e, { turns := { listed := xs, later := .again p }, stream := rest })
    | none               => none
  | .free k n =>
    match turnEvent pulls bytes (Config.freeTurn k n) with
    | some (e, rest) => some (e, { turns := { listed := [], later := .free k (n + 1) }, stream := rest })
    | none           =>
      some (.command (Config.freeWord k n), { turns := { listed := [], later := .free k (n + 1) }, stream := bytes })

/-- The next event of a state: the first turn to come that is one; and the environment it leaves. -/
def nextEvent (s : State) : Option (Event × Env) :=
  match firstEvent s.st.pulls s.env.stream s.env.turns.listed with
  | some (e, xs, rest) => some (e, { turns := { s.env.turns with listed := xs }, stream := rest })
  | none               => laterEvent s.st.pulls s.env.stream s.env.turns.later

/-- The state with the environment after an event was taken from it. -/
def State.withEnv (s : State) (e : Env) : State := { s with env := e }

/-- R43, R89: one step: the next enabled event takes effect; with none to come the block is stuck. -/
def stepEvent (s : State) : Host.Outcome State Fault Refusal :=
  match nextEvent s with
  | none        => .fault .stuck
  | some (e, v) => onEvent e (s.withEnv v)

/-- A command word presented as the very next event. -/
def present (w : Word) (s : State) : State := s.withEnv { s.env with turns := s.env.turns.push (.command w) }

end Sys2Proof.Machine
end

