-- ==== Sys2Proof/Machine/Step.lean ====
section
/-! DEFINITION. Machine/Step.lean: one step of the machine, and a command word placed where the next step takes it. -/

namespace Sys2Proof.Machine

open Sys2Proof

/-- R19: one step, caused by exactly one event. -/
def step (s : State) : Host.Outcome State Fault Refusal := stepEvent s

/-- The word numbered as spec/opcode_table.json numbers it, presented by the controller as the next event (log 9). The
block stores no program (R26): this stands for the controller. -/
def State.withFetchWord (s : State) (nbits w : Nat) : State := present (BitVec.ofNat 16 (w % 2 ^ nbits)) s

end Sys2Proof.Machine
end

