-- ==== Sys2Proof/Machine/Forms.lean ====
section
/-! DEFINITION. Machine/Forms.lean: the wire format (30_encoding.md Part A, R62 to R70) as data and bytes, and the two
function forms the spec gives beside its step rules: the first marker pair (R87, R94) and the whole-frame view (R127).
The machine does not use them; statements compare it with them. -/

namespace Sys2Proof.Machine

open Sys2Proof

/-! ## The first marker pair (R87, R94) -/

/-- R87: bytes `s[k-1]` and `s[k]` are both `0xFF`, `k >= 1`. -/
abbrev PairAt (bs : List Byte) (k : Nat) : Prop :=
  1 ≤ k ∧ bs[k - 1]? = some syncMarker ∧ bs[k]? = some syncMarker

/-- R94: `firstPair(s)` = the least `k >= 1` with `s[k-1] = s[k] = 0xFF`, or none. -/
def firstPair (bs : List Byte) : Option Nat := (List.range bs.length).find? (fun k => decide (PairAt bs k))

/-! ## The wire format -/

/-- R65: a robot record, 5 bytes. -/
structure WireRobot where
  id       : Byte
  heading  : Byte
  reserved : Byte
  posX     : Byte
  posY     : Byte
  deriving DecidableEq, Repr

/-- R67: a ball record, 2 bytes. -/
structure WireBall where
  posX : Byte
  posY : Byte
  deriving DecidableEq, Repr

/-- R62, R64: a frame as a sender lays it out. The counts are raw bytes; a sender keeps them equal to the list lengths. -/
structure WireFrame where
  numRobots : Byte
  numBalls  : Byte
  robots    : List WireRobot
  balls     : List WireBall
  deriving DecidableEq, Repr

/-- R49, R65: the bytes of a robot record, in stream order. -/
def WireRobot.bytes (r : WireRobot) : List Byte := [r.id, r.heading, r.reserved, r.posX, r.posY]

/-- R49, R67: the bytes of a ball record, in stream order. -/
def WireBall.bytes (b : WireBall) : List Byte := [b.posX, b.posY]

/-- R62, R121: the frame after its marker pair: header, robot records, ball records, with nothing between them. -/
def WireFrame.payload (f : WireFrame) : List Byte :=
  [f.numRobots, f.numBalls] ++ f.robots.flatMap WireRobot.bytes ++ f.balls.flatMap WireBall.bytes

/-- R62, R63: the whole frame, the marker pair first. -/
def WireFrame.bytes (f : WireFrame) : List Byte := [syncMarker, syncMarker] ++ f.payload

/-- R65, R68, R108: the robot a record stands for, in a build. -/
def decodeRobot (c : Config) (r : WireRobot) : RobotInfo :=
  { id      := r.id,
    heading := angle c.angleTable (headingOf c.headingLayout r.heading r.reserved).1
                 (headingOf c.headingLayout r.heading r.reserved).2,
    x       := lin r.posX,
    y       := lin r.posY }

/-- R67, R108: the ball a record stands for. -/
def decodeBall (b : WireBall) : Vector2D := { x := lin b.posX, y := lin b.posY }

/-- R62: what a frame whose counts are its list lengths stands for. -/
def WireFrame.snapshot (c : Config) (f : WireFrame) : Snapshot :=
  { nr := f.numRobots, nb := f.numBalls, rob := f.robots.map (decodeRobot c), bal := f.balls.map decodeBall }

/-! ## The whole-frame view (R127)

`t` is the list of bytes delivered after `FRAME` is accepted, `js` the value of `JS` then. -/

/-- R127: `o = 0` if `JS = 1` and `o = 2` if `JS = 0`. -/
def formOffset (js : Bool) : Nat := if js then 0 else 2

/-- R127: `nr = min(t[o], MAX_ROBOTS)`. -/
def formNr (js : Bool) (t : List Byte) : Nat := min (t.getD (formOffset js) 0).toNat maxRobots

/-- R127: `nb = min(t[o+1], MAX_BALLS)`. -/
def formNb (c : Config) (js : Bool) (t : List Byte) : Nat := min (t.getD (formOffset js + 1) 0).toNat c.maxBalls

/-- R127: the number of robot records on the wire: `nr`, or none with `WITH_ROBOT_LIST = false`. -/
def formRobots (c : Config) (js : Bool) (t : List Byte) : Nat := if c.withRobotList then formNr js t else 0

/-- R70, R127: the number of bytes the decode consumes, `o + 2 + 5nr + 2nb`. -/
def formLength (c : Config) (js : Bool) (t : List Byte) : Nat :=
  formOffset js + 2 + 5 * formRobots c js t + 2 * formNb c js t

/-- R127: robot `i`, decoded from `t[o+2+5i .. o+2+5i+4]`. -/
def formRobot (c : Config) (js : Bool) (t : List Byte) (i : Nat) : RobotInfo :=
  decodeRobot c
    { id := t.getD (formOffset js + 2 + 5 * i) 0, heading := t.getD (formOffset js + 2 + 5 * i + 1) 0,
      reserved := t.getD (formOffset js + 2 + 5 * i + 2) 0, posX := t.getD (formOffset js + 2 + 5 * i + 3) 0,
      posY := t.getD (formOffset js + 2 + 5 * i + 4) 0 }

/-- R127: ball `j`, decoded from `t[o+2+5nr+2j .. +1]`. -/
def formBall (c : Config) (js : Bool) (t : List Byte) (j : Nat) : Vector2D :=
  decodeBall
    { posX := t.getD (formOffset js + 2 + 5 * formRobots c js t + 2 * j) 0,
      posY := t.getD (formOffset js + 2 + 5 * formRobots c js t + 2 * j + 1) 0 }

/-- R127: the snapshot published, `{nr, nb, robots, balls}`. -/
def formSnapshot (c : Config) (js : Bool) (t : List Byte) : Snapshot :=
  { nr := BitVec.ofNat 8 (formNr js t), nb := BitVec.ofNat 8 (formNb c js t),
    rob := (List.range (formRobots c js t)).map (formRobot c js t),
    bal := (List.range (formNb c js t)).map (formBall c js t) }

end Sys2Proof.Machine
end

