-- ==== Sys2Proof/Machine/Pseudo.lean ====
section
/-! DEFINITION. Machine/Pseudo.lean: the assembler spelling of the operations (R80) and the pseudo-operations (R81), which
are sequences the controller issues and have no encoding of their own. Notation and environment only; the step does not
use this file. -/

namespace Sys2Proof.Machine

open Sys2Proof

/-- R80: the assembler line of an operation. -/
def asmLine (i : Instr) : String :=
  match i with
  | .sync       => "SYNC"
  | .abort      => "ABORT"
  | .declin b   => "DECLIN " ++ toString b.toNat
  | .decang b n => "DECANG " ++ toString b.toNat ++ ", " ++ (if n then "1" else "0")
  | .frame      => "FRAME"

/-- The controller issues an operation. -/
def issue (i : Instr) : Turn := .command (encode i)

/-- The source is given `n` turns to deliver. Turns in which the block does not pull pass, so `n` turns with `n` at least
the bytes still pulled stand for R80's `wait SYNCED`. -/
def deliveries (n : Nat) : List Turn := List.replicate n .deliver

/-- The source delivers `n` bytes, and between them the controller presents any commands it likes but `ABORT`; no link loss
and no reset (the premise of R87 and R127). -/
def Feeds (turns : List Turn) (n : Nat) : Prop :=
  turns.count .deliver = n ∧ ∀ x ∈ turns, x = .deliver ∨ ∃ w, x = .command w ∧ w ≠ encode .abort

/-- R81: `RESYNC` = `ABORT` then `SYNC`. -/
def resync : List Turn := [issue .abort, issue .sync]

/-- R81: `FRAMEX` = if `ST = UNSYNCED` then (`SYNC`; `wait SYNCED`); `FRAME`; `wait SYNCED`, the waits being `n` and `m`
turns of the source. -/
def framex (x : St) (n m : Nat) : List Turn :=
  (if x = .unsynced then issue .sync :: deliveries n else []) ++ issue .frame :: deliveries m

end Sys2Proof.Machine
end

