-- ==== Sys2Proof/Machine/Signals.lean ====
section
/-! DEFINITION. Machine/Signals.lean: the cycle-level binding of R165, which the spec calls NOT NORMATIVE ("any binding
that produces the same sequence of events is as good"). It gives R139's order of events presented in one cycle: `RESET`,
then `LL`, then `CMD`, then `RX`, each seeing the state the previous one left. The step does not use this file (log 10). -/

namespace Sys2Proof.Machine

open Sys2Proof

/-- R165: the input signals of one clock cycle. -/
structure Pins where
  rst      : Bool
  linkLost : Bool
  cmdValid : Bool
  cmd      : Word
  rxValid  : Bool
  rxData   : Byte
  deriving DecidableEq, Repr

/-- R165: `rx_ready = (ST = HUNT or ST = DECODING)`. -/
def rxReady (s : State) : Bool := s.st.pulls

/-- R165: the output signals after a cycle in which several events happened: each event's outputs are present. -/
def Outputs.both (a b : Outputs) : Outputs :=
  { res := b.res.or a.res, refused := a.refused || b.refused, evSync := a.evSync || b.evSync,
    evFrame := a.evFrame || b.evFrame, evFault := a.evFault || b.evFault }

/-- An event of a cycle: it happens if its condition holds in the state the previous event left, and its outputs are
added to those of the cycle so far. -/
def cycleEvent (happens : State → Bool) (e : Event) (o : Host.Outcome State Fault Refusal) :
    Host.Outcome State Fault Refusal :=
  match o with
  | .next s =>
    if happens s then
      match onEvent e s with
      | .next t    => .next (t.withOut (Outputs.both s.out t.out))
      | .fault f   => .fault f
      | .refused r => .refused r
    else .next s
  | .fault f   => .fault f
  | .refused r => .refused r

/-- R165, R139: one clock cycle. -/
def cycle (p : Pins) (s : State) : Host.Outcome State Fault Refusal :=
  cycleEvent (fun t => p.rxValid && rxReady t) (.rx p.rxData)
    (cycleEvent (fun _ => p.cmdValid) (.command p.cmd)
      (cycleEvent (fun _ => p.linkLost) .linkLost
        (cycleEvent (fun _ => p.rst) .reset
          (.next (s.withOut Outputs.quiet)))))

end Sys2Proof.Machine
end

