-- ==== Sys2Proof/Safety.lean ====
section
/-! DEFINITION. Safety.lean: what a good state is (the invariants of R39), which states are reached (R39: "every reachable
state"), which transitions of the control state exist (R123), and when two states differ only in unspecified values
(R38, R126). -/

namespace Sys2Proof.Machine

open Sys2Proof

/-! ## The invariants of R39 -/

/-- R39, R29: `CAUSE = 1` if and only if `ST = FAULTED`, and otherwise 0. -/
abbrev CauseMatchesState (s : State) : Prop := s.cause = if s.st = .faulted then .linkLost else .none

/-- R39: in `DECODING`, `NR <= MAX_ROBOTS` and `NB <= MAX_BALLS` once `PH` is `P_ROB` or `P_BAL`. -/
abbrev CountsClamped (s : State) : Prop :=
  s.st = .decoding → (s.frame.ph = .rob ∨ s.frame.ph = .bal) →
    s.frame.nr.toNat ≤ maxRobots ∧ s.frame.nb.toNat ≤ s.cfg.maxBalls

/-- R39: `IDX < NR` in `P_ROB` and `IDX < NB` in `P_BAL`. -/
abbrev IndexInRange (s : State) : Prop :=
  s.st = .decoding →
    (s.frame.ph = .rob → s.frame.idx.toNat < s.frame.nr.toNat) ∧
    (s.frame.ph = .bal → s.frame.idx.toNat < s.frame.nb.toNat)

/-- R39: `CNT <= 1` in `P_SKIP`, `P_HDR` and `P_BAL`, `CNT <= 4` in `P_ROB`. -/
abbrev CountInUnit (s : State) : Prop :=
  s.st = .decoding → s.frame.cnt.toNat ≤ if s.frame.ph = .rob then 4 else 1

/-- R39, R35: if `PUB_VALID = 1` then `PUB.nr <= MAX_ROBOTS` and `PUB.nb <= MAX_BALLS`, and the lists have the lengths the
header says (no robots with `WITH_ROBOT_LIST = false`, R122). -/
abbrev SnapshotBounded (s : State) : Prop :=
  s.frame.pubValid = true →
    s.frame.pub.nr.toNat ≤ maxRobots ∧ s.frame.pub.nb.toNat ≤ s.cfg.maxBalls ∧
    s.frame.pub.rob.length = (if s.cfg.withRobotList then s.frame.pub.nr.toNat else 0) ∧
    s.frame.pub.bal.length = s.frame.pub.nb.toNat

/-- R39: `SYNC_EVENTS` is at most the number of `SYNC` commands accepted; while a hunt is on, strictly less. -/
abbrev SyncEventsAccepted (s : State) : Prop :=
  s.ghost.syncEvents + (if s.st = .hunt then 1 else 0) ≤ s.ghost.syncAccepts

/-- R85, R87: during a hunt, `CONSUMED` has moved on from `HUNT_START` by at least one byte once `LV = 1`. -/
abbrev HuntCounted (s : State) : Prop :=
  s.st = .hunt → s.ghost.huntStart + (if s.lv then 1 else 0) ≤ s.ghost.consumed

/-- R53: the stores have fixed size: `BAL` has `MAX_BALLS` elements in a build that has it. -/
abbrev BallsSized (s : State) : Prop := s.frame.bal.length = s.cfg.maxBalls

/-- R5, R16, R66: a frame is being decoded only in a build with the frame layer and a known layout; robot records are read
only with `WITH_ROBOT_LIST = true`. -/
abbrev DecodingAllowed (s : State) : Prop :=
  s.st = .decoding →
    s.cfg.withFrameLayer = true ∧ s.cfg.layoutKnown = true ∧ (s.frame.ph = .rob → s.cfg.withRobotList = true)

/-- R39: the invariants that hold in every reachable state. -/
structure StateInv (s : State) : Prop where
  cause    : CauseMatchesState s
  counts   : CountsClamped s
  index    : IndexInRange s
  unit     : CountInUnit s
  snapshot : SnapshotBounded s
  syncs    : SyncEventsAccepted s
  hunt     : HuntCounted s
  balls    : BallsSized s
  allowed  : DecodingAllowed s

/-! ## Reachable states -/

/-- The states the machine can be in: reset in any build before any environment, and every next state. -/
inductive Reachable : State → Prop where
  | reset (c : Config) (e : Env) : Reachable (State.resetIn c e)
  | step {s t : State} : Reachable s → step s = .next t → Reachable t

/-- `n` steps of the machine. -/
def runs (n : Nat) (s : State) : Host.Outcome State Fault Refusal := Host.Core.run Sys2Proof.core n s

/-! ## The transitions of the control state (R123) -/

/-- R123: "No other transitions are valid", with this spec's two additions (`ABORT`, `RESET`). Staying is not a
transition. -/
inductive Transition : St → Event → St → Prop where
  | sync  : Transition .unsynced (.command (encode .sync)) .hunt
  | pair  : Transition .hunt (.rx syncMarker) .synced
  | frame : Transition .synced (.command (encode .frame)) .decoding
  | done (b : Byte) : Transition .decoding (.rx b) .synced
  | abort {x : St} (h : x ≠ .faulted) : Transition x (.command (encode .abort)) .unsynced
  | lost  {x : St} : Transition x .linkLost .faulted
  | reset {x : St} : Transition x .reset .unsynced

/-! ## States that differ only in values no rule reads (R38, R126) -/

/-- R126: the parts of a frame decode that later steps read agree: phase, count, index, the bytes gathered, the counts once
they are written, and the elements this frame has written. -/
structure SameDecode (s t : State) : Prop where
  ph     : s.frame.ph = t.frame.ph
  cnt    : s.frame.cnt = t.frame.cnt
  idx    : s.frame.idx = t.frame.idx
  scr    : s.frame.ph ≠ .skip → ∀ i, i < s.frame.cnt.toNat → s.frame.scr[i]? = t.frame.scr[i]?
  counts : s.frame.ph = .rob ∨ s.frame.ph = .bal → s.frame.nr = t.frame.nr ∧ s.frame.nb = t.frame.nb
  rob    : s.frame.ph = .rob → ∀ i, i < s.frame.idx.toNat → s.frame.rob[i]? = t.frame.rob[i]?
  robots : s.frame.ph = .bal → s.cfg.withRobotList = true →
             ∀ i, i < s.frame.nr.toNat → s.frame.rob[i]? = t.frame.rob[i]?
  bal    : s.frame.ph = .bal → ∀ i, i < s.frame.idx.toNat → s.frame.bal[i]? = t.frame.bal[i]?

/-- Two states that agree on everything the spec lets a controller, a reader or a later step see: they may differ in `LAST`
while `LV = 0`, in `PUB` while `PUB_VALID = 0`, in the decode registers outside `DECODING`, in stale bytes and stale list
elements, and in the draws of free values. -/
structure SameVisible (s t : State) : Prop where
  cfg      : s.cfg = t.cfg
  st       : s.st = t.st
  lv       : s.lv = t.lv
  last     : s.lv = true → s.last = t.last
  cause    : s.cause = t.cause
  js       : s.frame.js = t.frame.js
  pubValid : s.frame.pubValid = t.frame.pubValid
  pub      : s.frame.pubValid = true → s.frame.pub = t.frame.pub
  ballsLen : s.frame.bal.length = t.frame.bal.length
  decode   : s.st = .decoding → SameDecode s t
  ghost    : s.ghost = t.ghost
  out      : s.out = t.out
  env      : s.env = t.env

end Sys2Proof.Machine
end

