-- ==== Sys2Proof/Certificates/Slice0/Obligations.lean ====
section
/-! DEFINITION. Certificates/Slice0/Obligations.lean: the statements for the provers, from the numbered rules of spec/.
Nothing here rests on a value State.reset was given by choice (log 8), on the build it stands in (log 3) or on what a free
value is (log 4): the statements hold for every build and every draw, unless a docstring says otherwise. -/

open Sys2Proof Sys2Proof.Machine

/-! ## Encoding (30_encoding.md Part B) -/

/-- Decoding is exactly the inverse of encoding, in every build: a word decodes to an operation exactly when that operation
exists in the build and the word is its encoding. So decode of encode is the identity on every operand value, and no
other word decodes. -/
def Obligations.DecodeExactlyInvertsEncode : Prop :=
  ∀ (fl : Bool) (w : Word) (i : Instr), decodeFor fl w = .ok i ↔ (wellFormed fl i = true ∧ encode i = w)

/-- R75: the five rows, each with its match and mask as the table has them, the operand bits of R74, and the two examples
with operands; and no word selects two different rows. -/
def Obligations.WordsSelectTheRowsOfTheTable : Prop :=
  (∀ w : Word,
    (decode w = .ok .sync ↔ w &&& 0xFFFF = 0x1000) ∧
    (decode w = .ok .abort ↔ w &&& 0xFFFF = 0x2000) ∧
    (∀ b, decode w = .ok (.declin b) ↔ (w &&& 0xFF00 = 0x3000 ∧ b = w.extractLsb' 0 8)) ∧
    (∀ b n, decode w = .ok (.decang b n) ↔ (w &&& 0xFE00 = 0x4000 ∧ n = w.getLsbD 8 ∧ b = w.extractLsb' 0 8)) ∧
    (decode w = .ok .frame ↔ w &&& 0xFFFF = 0x8000)) ∧
  (∀ (w : Word) (i j : Instr), (rowOf i).selects w = true → (rowOf j).selects w = true → rowOf i = rowOf j) ∧
  encode (.declin 255) = 0x30FF ∧ encode (.decang 50 true) = 0x4132

/-- R76, R78: exactly the words R76 lists are illegal, and an illegal word changes nothing but the `refused` output. -/
def Obligations.IllegalWordsAreRefused : Prop :=
  ∀ (s : State) (w : Word),
    ((∃ r, decodeFor s.cfg.withFrameLayer w = .error r) ↔
      (opField w ∉ [1, 2, 3, 4, 8] ∨ zField w ≠ 0 ∨ (nField w = true ∧ opField w ∈ [1, 2, 3, 8]) ∨
       (bField w ≠ 0 ∧ opField w ∈ [1, 2, 8]) ∨ (s.cfg.withFrameLayer = false ∧ opField w = 8))) ∧
    ((∃ r, decodeFor s.cfg.withFrameLayer w = .error r) →
      onEvent (.command w) s = .next { s with out := { Outputs.quiet with refused := true } })

/-- The words of R75 written out bit by bit decode to the operations they stand for, also when numbered as the opcode table
numbers them; the reserved and malformed words of the test vectors V-E2 to V-E8, all ten of V-E7 among them, do not
decode. That they do not is the spec's; the names of the reasons, and which of several is given, are the model's choice
(log 17). -/
def Obligations.SampleWordsDecode : Prop :=
  decode 0b0001000000000000 = .ok .sync ∧ decode 0b0010000000000000 = .ok .abort ∧
  decode 0b0011000000001010 = .ok (.declin 10) ∧ decode 0b0100000100110010 = .ok (.decang 50 true) ∧
  decode 0b0100000001100100 = .ok (.decang 100 false) ∧ decode 0b1000000000000000 = .ok .frame ∧
  decodeTableWord 16 0x41FF = some (.decang 255 true) ∧ decodeFor false 0x8000 = .error .noFrameLayer ∧
  decode 0x1001 = .error .bNotZero ∧ decode 0x2100 = .error .nNotZero ∧ decode 0x3100 = .error .nNotZero ∧
  decode 0x4200 = .error .zNotZero ∧ decode 0x0000 = .error .reservedOp ∧
  (∀ w ∈ [(0x5000 : Word), 0x6000, 0x7000, 0x9000, 0xA000, 0xB000, 0xC000, 0xD000, 0xE000, 0xF000],
    decode w = .error .reservedOp) ∧
  decode 0x8001 = .error .bNotZero

/-! ## Which command is performed where (R77, R78) -/

/-- R77: the table of which legal command is performed in which state, in a build that has the frame layer and a known
layout: the command is accepted exactly in the states the table says `perform`, and refused in the others. -/
def Obligations.CommandsArePerformedByTheTable : Prop :=
  ∀ (i : Instr) (s : State), s.cfg.withFrameLayer = true → s.cfg.layoutKnown = true →
    ∃ t, exec i s = .next t ∧
      (t.out.refused = false ↔
        match i with
        | .sync       => s.st = .unsynced
        | .abort      => s.st = .unsynced ∨ s.st = .hunt ∨ s.st = .synced ∨ s.st = .decoding
        | .declin _   => True
        | .decang _ _ => True
        | .frame      => s.st = .synced)

/-- R78: a refused command, whether its word is illegal (R76) or its operation is not performed in the state (R77), changes
no state, takes no byte, produces no result and sets the step's `refused` output: `ST` and `CAUSE` are unchanged. The
meanings say the same of themselves; `FRAME` is refused so in every state of a build without the frame layer. -/
def Obligations.RefusedCommandChangesNothing : Prop :=
  (∀ (w : Word) (s : State),
    ((∃ r, decodeFor s.cfg.withFrameLayer w = .error r) ∨
      ∃ i, decodeFor s.cfg.withFrameLayer w = .ok i ∧ performedIn i s.st = false) →
    onEvent (.command w) s = .next { s with
      out := { res := none, refused := true, evSync := false, evFrame := false, evFault := false } }) ∧
  (∀ (i : Instr) (s : State), performedIn i s.st = false ∨ wellFormed s.cfg.withFrameLayer i = false →
    exec i s = .next { s with
      out := { res := none, refused := true, evSync := false, evFrame := false, evFault := false } })

/-- R66: with `WITH_ROBOT_LIST = false` and no layout supplied, the model gives the `FRAME` that would be performed no
meaning, and says so by name. -/
def Obligations.UnknownLayoutIsRefusedByName : Prop :=
  ∀ s : State, s.st = .synced → s.cfg.withFrameLayer = true → s.cfg.robotList = .absentUnknown →
    exec .frame s = .refused .robotListLayoutUnknown

/-! ## FSYNC (40_sync.md) -/

/-- R84: `SYNC` in `UNSYNCED` completes: an empty window, the block pulls, and nothing else but the ghosts changes (`LAST`
keeps what it held). In every other state it is refused. -/
def Obligations.SyncStartsAHunt : Prop :=
  ∀ s : State,
    (s.st = .unsynced →
      exec .sync s = .next { s with
        st := .hunt, lv := false,
        ghost := { s.ghost with huntStart := s.ghost.consumed, syncAccepts := s.ghost.syncAccepts + 1 },
        out := Outputs.quiet }) ∧
    (s.st ≠ .unsynced → exec .sync s = .next { s with out := { Outputs.quiet with refused := true } })

/-- R90: `ABORT` in any non-faulted state completes: `UNSYNCED`, an empty window, `JS` and `CNT` cleared in a build with the
frame layer, and everything else (`PUB`, `PUB_VALID`, the lists, `CAUSE`, `CONSUMED`) unchanged. In `FAULTED` it is
refused. -/
def Obligations.AbortReturnsToUnsynced : Prop :=
  ∀ s : State,
    (s.st ≠ .faulted → s.cfg.withFrameLayer = true →
      exec .abort s = .next { s with
        st := .unsynced, lv := false, frame := { s.frame with js := false, cnt := 0 }, out := Outputs.quiet }) ∧
    (s.st ≠ .faulted → s.cfg.withFrameLayer = false →
      exec .abort s = .next { s with st := .unsynced, lv := false, out := Outputs.quiet }) ∧
    (s.st = .faulted → exec .abort s = .next { s with out := { Outputs.quiet with refused := true } })

/-- R86: the step on a delivered byte while hunting, both branches whole. -/
def Obligations.HuntStepSyncsOrShifts : Prop :=
  ∀ (s : State) (b : Byte), s.st = .hunt →
    ((s.lv = true ∧ s.last = 0xFF ∧ b = 0xFF) →
      onEvent (.rx b) s = .next { s with
        st := .synced,
        frame := { s.frame with js := if s.cfg.withFrameLayer = true then true else s.frame.js },
        ghost := { s.ghost with consumed := s.ghost.consumed + 1, syncEvents := s.ghost.syncEvents + 1 },
        out := { Outputs.quiet with evSync := true } }) ∧
    (¬(s.lv = true ∧ s.last = 0xFF ∧ b = 0xFF) →
      onEvent (.rx b) s = .next { s with
        last := b, lv := true, ghost := { s.ghost with consumed := s.ghost.consumed + 1 }, out := Outputs.quiet })

/-- R85: the first byte of a hunt never completes a pair, whatever it is and whatever was seen before; and a step that
reports `ev_sync`, from any state that meets the invariant, ends a hunt that took at least two bytes. -/
def Obligations.HuntNeedsTwoBytesOfItsOwn : Prop :=
  (∀ (s : State) (b : Byte), s.st = .unsynced →
    ∃ t u, exec .sync s = .next t ∧ onEvent (.rx b) t = .next u ∧ u.st = .hunt ∧ u.out.evSync = false ∧ u.lv = true) ∧
  (∀ s t : State, StateInv s → step s = .next t → t.out.evSync = true → t.ghost.huntStart + 2 ≤ t.ghost.consumed)

/-- R87: from the start of a hunt over a stream, finite or infinite, whose bytes up to index `k` are `bs` with the first
marker pair ending at `k`, whatever commands but `ABORT` come between the bytes: up to and including `s[k-1]` the block is
hunting, and the step that takes `s[k]` is the sync event, after exactly `k + 1` bytes, with `s[k+1]` the next byte of the
stream. -/
def Obligations.HuntEndsAtTheFirstPair : Prop :=
  ∀ (s : State) (k : Nat) (bs : List Byte) (rest : Feed Byte) (pre : List Turn) (ts : Feed Turn),
    s.st = .unsynced → firstPair bs = some k → bs.length = k + 1 → Delivers s.env.stream bs rest → Feeds pre k →
    Presents s.env.turns (issue .sync :: (pre ++ [.deliver])) ts →
    (∀ j, j ≤ pre.length → ∃ u, runs (j + 1) s = .next u ∧ u.st = .hunt ∧ u.out.evSync = false ∧
      u.ghost.syncEvents = s.ghost.syncEvents) ∧
    ∃ t, runs (pre.length + 2) s = .next t ∧ t.st = .synced ∧ t.out.evSync = true ∧
      t.ghost.huntStart = s.ghost.consumed ∧ t.ghost.consumed = t.ghost.huntStart + k + 1 ∧
      t.ghost.syncEvents = s.ghost.syncEvents + 1 ∧ t.env = { turns := ts, stream := rest }

/-- R89, and the other half of R94: over bytes with no marker pair the hunt goes on, whatever commands but `ABORT` come
between them: after all of them the block is still in `HUNT`, with `LV = (length s > 0)` and `LAST` the last byte of `s`,
and no sync event. -/
def Obligations.HuntGoesOnWithoutAPair : Prop :=
  ∀ (s : State) (bs : List Byte) (rest : Feed Byte) (pre : List Turn) (ts : Feed Turn),
    s.st = .unsynced → firstPair bs = none → Delivers s.env.stream bs rest → Feeds pre bs.length →
    Presents s.env.turns (issue .sync :: pre) ts →
    ∃ t, runs (pre.length + 1) s = .next t ∧ t.st = .hunt ∧ t.lv = decide (0 < bs.length) ∧
      (∀ b, bs.getLast? = some b → t.last = b) ∧ t.ghost.syncEvents = s.ghost.syncEvents ∧
      t.ghost.consumed = s.ghost.consumed + bs.length ∧ t.env = { turns := ts, stream := rest }

/-- R42, R89, vector V-S15: over an infinite stream that never has a marker pair, delivered without end, the hunt never ends
and never stops: after any number of bytes the block is in `HUNT`, has taken them all and has reported nothing. -/
def Obligations.HuntGoesOnForEver : Prop :=
  ∀ (s : State) (ts : Feed Turn),
    s.st = .unsynced → Presents s.env.turns [issue .sync] ts →
    (∀ n, ∃ u, Presents ts (deliveries n) u) →
    (∀ n, ∃ bs rest, bs.length = n ∧ Delivers s.env.stream bs rest ∧ firstPair bs = none) →
    ∀ n, ∃ t, runs (n + 1) s = .next t ∧ t.st = .hunt ∧ t.out.evSync = false ∧
      t.ghost.consumed = s.ghost.consumed + n ∧ t.ghost.syncEvents = s.ghost.syncEvents

/-- R88: three markers in a row: one sync event after two bytes, in every build; the third marker is header data, which a
following `FRAME` reads as `numRobots = 255`, clamped to 10, and the byte after it as `numBalls`. -/
def Obligations.ThirdMarkerIsHeaderData : Prop :=
  ∀ (s : State) (x : Byte) (rest : Feed Byte) (ts : Feed Turn),
    s.st = .unsynced → Delivers s.env.stream [0xFF, 0xFF, 0xFF, x] rest →
    (Presents s.env.turns (issue .sync :: deliveries 2) ts →
      ∃ t, runs 3 s = .next t ∧ t.st = .synced ∧ t.ghost.syncEvents = s.ghost.syncEvents + 1 ∧
        t.ghost.consumed = s.ghost.consumed + 2 ∧ t.env.turns = ts ∧ Delivers t.env.stream [0xFF, x] rest) ∧
    (s.cfg.withFrameLayer = true → s.cfg.layoutKnown = true →
      Presents s.env.turns (issue .sync :: deliveries 2 ++ issue .frame :: deliveries 2) ts →
      ∃ t, runs 6 s = .next t ∧ t.frame.nr = 10 ∧ t.frame.nb.toNat = min x.toNat s.cfg.maxBalls ∧
        (s.cfg.withRobotList = true → t.st = .decoding ∧ t.frame.ph = .rob) ∧
        t.ghost.syncEvents = s.ghost.syncEvents + 1 ∧ t.env = { turns := ts, stream := rest })

/-- The whole machine: a "synchronized" report comes only from a hunt whose previous byte and whose newly taken byte are
both `0xFF`; never on a single matching byte, and from no other event. -/
def Obligations.SyncReportOnlyOnAMarkerPair : Prop :=
  ∀ s t : State, step s = .next t → (t.out.evSync = true ∨ t.ghost.syncEvents = s.ghost.syncEvents + 1) →
    s.st = .hunt ∧ s.lv = true ∧ s.last = 0xFF ∧ nextByte s.env.stream = some (0xFF, t.env.stream) ∧ t.st = .synced ∧
      t.out.evSync = true ∧ t.ghost.syncEvents = s.ghost.syncEvents + 1

/-- R25: only the predicate `LV = 1 and LAST = 0xFF` ever influences behaviour: two states that differ in `LAST` and `LV`
alone, with the same predicate, answer every event with states that differ in `LAST` and `LV` alone, with the same
predicate, or with the same stop. (After `RESET`, `LV = 0`; the draw of `LAST` is the same, the states having drawn
equally often.) -/
def Obligations.OnlyThePreviousMarkerBitMatters : Prop :=
  ∀ (s : State) (l : Byte) (v : Bool) (e : Event), State.pm { s with last := l, lv := v } = s.pm →
    (∀ t, onEvent e s = .next t → ∃ l' v', onEvent e { s with last := l, lv := v } = .next { t with last := l', lv := v' } ∧
      State.pm { t with last := l', lv := v' } = t.pm) ∧
    (∀ f, onEvent e s = .fault f → onEvent e { s with last := l, lv := v } = .fault f) ∧
    (∀ r, onEvent e s = .refused r → onEvent e { s with last := l, lv := v } = .refused r)

/-! ## CODEC (41_codec.md) -/

/-- R99: `DECLIN b` completes in every state with `res = LIN(b)`, whose value is exactly `b / 2`, a plain binary32 number
with sign bit 0; `LIN(0)` is `+0.0`; nothing but the outputs changes. -/
def Obligations.DeclinDeliversExactlyHalf : Prop :=
  ∀ (b : Byte) (s : State),
    exec (.declin b) s = .next { s with out := { Outputs.quiet with res := some (lin b) } } ∧
    F32Plain (lin b) ∧ f32Sign (lin b) = false ∧ f32Value (lin b) = (b.toNat : ℚ) / 2 ∧
    (b ≠ 0 → lin b = BitVec.ofBool false ++ BitVec.ofNat 8 (bitLength b.toNat + 125) ++
      BitVec.ofNat 23 ((b.toNat <<< (24 - bitLength b.toNat)) % 2 ^ 23)) ∧
    lin 0 = 0

/-- R102: `LIN` is strictly increasing as a number and as an unsigned pattern, with step exactly 0.5, from 0.0 to 127.5. -/
def Obligations.LinearEncodingIncreases : Prop :=
  (∀ b c : Byte, b < c → f32Value (lin b) < f32Value (lin c) ∧ lin b < lin c) ∧
  (∀ b c : Byte, c.toNat = b.toNat + 1 → f32Value (lin c) - f32Value (lin b) = 1 / 2) ∧
  f32Value (lin 0) = 0 ∧ f32Value (lin 255) = 255 / 2

/-- R100, R101: `DECANG b, n` completes in every state with the table's magnitude and the sign bit equal to `n`, whatever
the table; nothing but the outputs changes. With the default table the corner values are those the rules list. -/
def Obligations.DecangDeliversSignedMagnitude : Prop :=
  ∀ (b : Byte) (n : Bool) (s : State),
    exec (.decang b n) s = .next { s with out := { Outputs.quiet with
      res := some (BitVec.ofBool n ++ (angleMag s.cfg.angleTable b).extractLsb' 0 31) } } ∧
    (s.cfg.angleTable = .amag → angleMag s.cfg.angleTable b = amag b) ∧
    angle .amag 0 false = 0x00000000 ∧ angle .amag 0 true = 0x80000000 ∧ angle .amag 1 false = 0x3C4AA525 ∧
    angle .amag 255 false = 0x4049DA80 ∧ angle .amag 254 false = 0x40490FDB ∧ angle .amag 127 false = 0x3FC90FDB ∧
    angle .amag 100 false = 0x3F9E5105 ∧ angle .amag 50 true = 0xBF1E5105

/-- R98: `AMAG(b) = RN32(b * K32)`: the plain binary32 number nearest the product, ties to even, with sign bit 0. The
integer algorithm of the rule is the model's definition; this says it computes what the rule says it is. -/
def Obligations.AngularMagnitudeIsNearest : Prop :=
  ∀ b : Byte, IsRN32 ((b.toNat : ℚ) * k32Value) (amag b) ∧ f32Sign (amag b) = false

/-- R103: the angular decode is an odd function of the sign flag, as a number and bit for bit, whatever the table: the
pattern with `n = 1` is the pattern with `n = 0` with bit 31 flipped, zero included; the default magnitude is within half
a unit in the last place plus `b * 8.7e-11` of the product with the decimal scale; and it strictly increases in `b`. -/
def Obligations.AngularDecodeIsOddInTheFlag : Prop :=
  (∀ (a : AngleTable) (b : Byte), angle a b true = angle a b false ^^^ 0x80000000) ∧
  (∀ (b : Byte) (n : Bool), f32Value (angle .amag b n) = (if n then -1 else 1) * f32Value (amag b)) ∧
  (∀ b : Byte, |f32Value (amag b) - (b.toNat : ℚ) * (12368475 / 10 ^ 9)| ≤
    (2 : ℚ) ^ f32Exp (amag b) / 2 ^ 151 + (b.toNat : ℚ) * (87 / 10 ^ 12)) ∧
  (∀ b c : Byte, b < c → amag b < amag c ∧ f32Value (amag b) < f32Value (amag c))

/-- R104: with the default table every result is a zero or a normal number with `2^-7 < |x| < 2^7`: never subnormal,
infinite or a NaN. -/
def Obligations.CodecResultsAreZeroOrNormal : Prop :=
  ∀ (b : Byte) (n : Bool) (x : F32), x = lin b ∨ x = angle .amag b n →
    F32Plain x ∧ (f32Value x = 0 ∨ ((1 : ℚ) / 2 ^ 7 < |f32Value x| ∧ |f32Value x| < 2 ^ 7))

/-- R106: the rounding alternative `RN32(b * 0.012368475)` differs from the default exactly at the seventeen bytes the rule
lists, each time by one unit in the last place. -/
def Obligations.OtherRoundingDiffersAtSeventeenBytes : Prop :=
  (∀ b : Byte, IsRN32 ((b.toNat : ℚ) * (12368475 / 10 ^ 9)) (amagExactDecimal b) ∧ f32Sign (amagExactDecimal b) = false) ∧
  (∀ b : Byte, b.toNat ∈ [29, 58, 65, 77, 109, 116, 123, 130, 154, 161, 163, 218, 225, 232, 239, 246, 253] →
    amagExactDecimal b = amag b - 1) ∧
  (∀ b : Byte, b.toNat ∉ [29, 58, 65, 77, 109, 116, 123, 130, 154, 161, 163, 218, 225, 232, 239, 246, 253] →
    amagExactDecimal b = amag b)

/-- R96: a codec operation reads no state and writes no state, is performed in every `ST`, is never refused, and returns the
same result for the same operands in any two states of a build. -/
def Obligations.CodecIsStateless : Prop :=
  ∀ (i : Instr) (s t : State), (∃ b, i = .declin b) ∨ (∃ b n, i = .decang b n) → s.cfg = t.cfg →
    ∃ r : F32, exec i s = .next { s with out := { Outputs.quiet with res := some r } } ∧
      exec i t = .next { t with out := { Outputs.quiet with res := some r } }

/-! ## The frame layer (42_frame_layer.md) -/

/-- R112: `FRAME` in `SYNCED` completes, in a build with the frame layer and a known layout: `DECODING`, `CNT` and `IDX`
cleared, the phase by `JS`; nothing else changes. In every other state it is refused. -/
def Obligations.FrameStartsADecode : Prop :=
  ∀ s : State,
    (s.st = .synced → s.cfg.withFrameLayer = true → s.cfg.layoutKnown = true →
      exec .frame s = .next { s with
        st := .decoding,
        frame := { s.frame with cnt := 0, idx := 0, ph := if s.frame.js = true then .hdr else .skip },
        out := Outputs.quiet }) ∧
    (s.st ≠ .synced → exec .frame s = .next { s with out := { Outputs.quiet with refused := true } })

/-- R113: the two bytes of the skip phase are discarded unchecked: the next state is the same whatever the byte is. -/
def Obligations.SkippedBytesAreNotChecked : Prop :=
  ∀ (s : State) (b : Byte), s.st = .decoding → s.frame.ph = .skip →
    onEvent (.rx b) s = .next { s with
      frame := { s.frame with
        cnt := if s.frame.cnt = 0 then 1 else 0, ph := if s.frame.cnt = 0 then .skip else .hdr },
      ghost := { s.ghost with consumed := s.ghost.consumed + 1 }, out := Outputs.quiet }

/-- R114, R117, R119: a byte that does not complete its unit is put in the scratch buffer at `CNT`, and counted; nothing
else changes, and nothing is decoded. -/
def Obligations.IncompleteUnitsAreOnlyGathered : Prop :=
  ∀ (s : State) (b : Byte), s.st = .decoding →
    (s.frame.ph = .hdr ∧ s.frame.cnt = 0 ∨ s.frame.ph = .rob ∧ s.frame.cnt < 4 ∨ s.frame.ph = .bal ∧ s.frame.cnt = 0) →
    ∃ scr : Vector Byte 5,
      onEvent (.rx b) s = .next { s with
        frame := { s.frame with scr := scr, cnt := s.frame.cnt + 1 },
        ghost := { s.ghost with consumed := s.ghost.consumed + 1 }, out := Outputs.quiet } ∧
      scr[s.frame.cnt.toNat]? = some b ∧
      ∀ i, i ≠ s.frame.cnt.toNat → scr[i]? = s.frame.scr[i]?

/-- R115, R116: the second header byte: both counts are clamped by `min` over the naturals and stored, `CNT` and `IDX` are
cleared, and the next phase is robots, balls, or, with nothing to read, the publish of an empty frame at once (R122,
R124, R129). -/
def Obligations.HeaderCountsAreClamped : Prop :=
  ∀ (s : State) (b : Byte), s.st = .decoding → s.frame.ph = .hdr → s.frame.cnt = 1 →
    ∃ t : State, onEvent (.rx b) s = .next t ∧
      t.frame.nr.toNat = min s.frame.scr[0].toNat 10 ∧ t.frame.nb.toNat = min b.toNat s.cfg.maxBalls ∧
      t.frame.cnt = 0 ∧ t.frame.idx = 0 ∧ t.frame.rob = s.frame.rob ∧ t.frame.bal = s.frame.bal ∧
      t.frame.scr = s.frame.scr ∧ t.cfg = s.cfg ∧ t.last = s.last ∧ t.lv = s.lv ∧ t.cause = s.cause ∧ t.env = s.env ∧
      t.fresh = s.fresh ∧
      (if s.cfg.withRobotList = true ∧ 0 < t.frame.nr.toNat then
        t.st = .decoding ∧ t.frame.ph = .rob ∧ t.frame.js = s.frame.js ∧ t.frame.pub = s.frame.pub ∧
        t.frame.pubValid = s.frame.pubValid ∧ t.out = Outputs.quiet ∧
        t.ghost = { s.ghost with consumed := s.ghost.consumed + 1 }
      else if 0 < t.frame.nb.toNat then
        t.st = .decoding ∧ t.frame.ph = .bal ∧ t.frame.js = s.frame.js ∧ t.frame.pub = s.frame.pub ∧
        t.frame.pubValid = s.frame.pubValid ∧ t.out = Outputs.quiet ∧
        t.ghost = { s.ghost with consumed := s.ghost.consumed + 1 }
      else
        t.st = .synced ∧ t.frame.ph = .hdr ∧ t.frame.js = false ∧ t.frame.pubValid = true ∧
        t.frame.pub = { nr := t.frame.nr, nb := 0, rob := [], bal := [] } ∧
        t.out = { Outputs.quiet with evFrame := true } ∧
        t.ghost = { s.ghost with consumed := s.ghost.consumed + 1, pubCount := s.ghost.pubCount + 1 })

/-- R68, R69: the default `HEADING_LAYOUT`: the sign flag is bit 7 of record byte 1, the magnitude its bits 6 to 0, 0 to 127;
record byte 2, the reserved byte, has no effect; so a decoded heading has at most the magnitude `127 * K32`. -/
def Obligations.DefaultHeadingIsBit7AndMagnitude : Prop :=
  (∀ b1 b2 : Byte, headingOf .signBit7 b1 b2 = ((b1.extractLsb' 0 7).setWidth 8, b1.getLsbD 7) ∧
    (headingOf .signBit7 b1 b2).1.toNat = b1.toNat % 128 ∧
    ((headingOf .signBit7 b1 b2).2 = true ↔ 128 ≤ b1.toNat) ∧
    amag (headingOf .signBit7 b1 b2).1 ≤ 0x3FC90FDB) ∧
  (∀ b1 b2 b2' : Byte, headingOf .signBit7 b1 b2 = headingOf .signBit7 b1 b2') ∧
  (∀ (c : Config) (r : WireRobot) (x : Byte), c.headingLayout = .signBit7 →
    decodeRobot c { r with reserved := x } = decodeRobot c r)

/-- R118: the last byte of a robot record: the record is decoded from the gathered bytes and stored at `IDX` (never past the
capacity, R54), every other robot keeps its value, and the decode goes on to the next robot, to the balls, or finishes.
With the default layout (R68) the heading's sign is bit 7 of the second byte, its magnitude the bits below, and the
reserved byte has no effect (R69). -/
def Obligations.RobotRecordIsDecodedAndStored : Prop :=
  ∀ (s : State) (b : Byte), s.st = .decoding → s.frame.ph = .rob → s.frame.cnt = 4 →
    ∃ t : State, onEvent (.rx b) s = .next t ∧
      (s.frame.idx.toNat < 10 → t.frame.rob[s.frame.idx.toNat]? = some
        { id := s.frame.scr[0],
          heading := angle s.cfg.angleTable (headingOf s.cfg.headingLayout s.frame.scr[1] s.frame.scr[2]).1
            (headingOf s.cfg.headingLayout s.frame.scr[1] s.frame.scr[2]).2,
          x := lin s.frame.scr[3], y := lin b }) ∧
      (s.frame.idx.toNat < 10 → s.cfg.headingLayout = .signBit7 → t.frame.rob[s.frame.idx.toNat]? = some
        { id := s.frame.scr[0],
          heading := angle s.cfg.angleTable ((s.frame.scr[1].extractLsb' 0 7).setWidth 8) (s.frame.scr[1].getLsbD 7),
          x := lin s.frame.scr[3], y := lin b }) ∧
      (∀ i, i ≠ s.frame.idx.toNat → t.frame.rob[i]? = s.frame.rob[i]?) ∧
      t.frame.bal = s.frame.bal ∧ t.frame.nr = s.frame.nr ∧ t.frame.nb = s.frame.nb ∧ t.frame.cnt = 0 ∧
      t.frame.scr = s.frame.scr ∧ t.cfg = s.cfg ∧ t.last = s.last ∧ t.lv = s.lv ∧ t.cause = s.cause ∧ t.env = s.env ∧
      t.fresh = s.fresh ∧
      (if s.frame.idx.toNat + 1 < s.frame.nr.toNat then
        t.st = .decoding ∧ t.frame.ph = .rob ∧ t.frame.idx.toNat = s.frame.idx.toNat + 1 ∧ t.out = Outputs.quiet ∧
        t.frame.js = s.frame.js ∧ t.frame.pub = s.frame.pub ∧ t.frame.pubValid = s.frame.pubValid ∧
        t.ghost = { s.ghost with consumed := s.ghost.consumed + 1 }
      else if 0 < s.frame.nb.toNat then
        t.st = .decoding ∧ t.frame.ph = .bal ∧ t.frame.idx = 0 ∧ t.out = Outputs.quiet ∧
        t.frame.js = s.frame.js ∧ t.frame.pub = s.frame.pub ∧ t.frame.pubValid = s.frame.pubValid ∧
        t.ghost = { s.ghost with consumed := s.ghost.consumed + 1 }
      else
        t.st = .synced ∧ t.frame.ph = .rob ∧ t.frame.idx = s.frame.idx ∧ t.frame.js = false ∧
        t.frame.pubValid = true ∧ t.frame.pub = snapshotOf t ∧ t.out = { Outputs.quiet with evFrame := true } ∧
        t.ghost = { s.ghost with consumed := s.ghost.consumed + 1, pubCount := s.ghost.pubCount + 1 })

/-- R120: the second byte of a ball record: stored at `IDX`, every other ball keeps its value, and the decode goes on to the
next ball or finishes. -/
def Obligations.BallRecordIsDecodedAndStored : Prop :=
  ∀ (s : State) (b : Byte), s.st = .decoding → s.frame.ph = .bal → s.frame.cnt = 1 →
    ∃ t : State, onEvent (.rx b) s = .next t ∧
      (s.frame.idx.toNat < s.frame.bal.length →
        t.frame.bal[s.frame.idx.toNat]? = some { x := lin s.frame.scr[0], y := lin b }) ∧
      (∀ i, i ≠ s.frame.idx.toNat → t.frame.bal[i]? = s.frame.bal[i]?) ∧
      t.frame.rob = s.frame.rob ∧ t.frame.nr = s.frame.nr ∧ t.frame.nb = s.frame.nb ∧ t.frame.cnt = 0 ∧
      t.frame.scr = s.frame.scr ∧ t.frame.ph = .bal ∧
      t.cfg = s.cfg ∧ t.last = s.last ∧ t.lv = s.lv ∧ t.cause = s.cause ∧ t.env = s.env ∧ t.fresh = s.fresh ∧
      (if s.frame.idx.toNat + 1 < s.frame.nb.toNat then
        t.st = .decoding ∧ t.frame.idx.toNat = s.frame.idx.toNat + 1 ∧ t.out = Outputs.quiet ∧
        t.frame.js = s.frame.js ∧ t.frame.pub = s.frame.pub ∧ t.frame.pubValid = s.frame.pubValid ∧
        t.ghost = { s.ghost with consumed := s.ghost.consumed + 1 }
      else
        t.st = .synced ∧ t.frame.idx = s.frame.idx ∧ t.frame.js = false ∧ t.frame.pubValid = true ∧
        t.frame.pub = snapshotOf t ∧ t.out = { Outputs.quiet with evFrame := true } ∧
        t.ghost = { s.ghost with consumed := s.ghost.consumed + 1, pubCount := s.ghost.pubCount + 1 })

/-- R122, R124, R55, the whole machine: the published snapshot changes only by a publish or by `RESET`; a step publishes
exactly when it reports `ev_frame`; and a publish replaces it whole by the counts and the first elements of the lists as
they stand, sets `PUB_VALID`, counts one more, and completes the frame. -/
def Obligations.SnapshotChangesOnlyByAWholePublish : Prop :=
  ∀ s t : State, step s = .next t →
    (t.out.evFrame = false → t.fresh = s.fresh →
      t.frame.pub = s.frame.pub ∧ t.frame.pubValid = s.frame.pubValid ∧ t.ghost.pubCount = s.ghost.pubCount) ∧
    (t.out.evFrame = true →
      s.st = .decoding ∧ t.st = .synced ∧ t.frame.js = false ∧ t.frame.pubValid = true ∧
      t.ghost.pubCount = s.ghost.pubCount + 1 ∧
      t.frame.pub.nr = t.frame.nr ∧ t.frame.pub.nb = t.frame.nb ∧
      t.frame.pub.rob = (if t.cfg.withRobotList then t.frame.rob.toList.take t.frame.nr.toNat else []) ∧
      t.frame.pub.bal = t.frame.bal.take t.frame.nb.toNat)

/-- R53, R54, the whole machine: but for `RESET`, only the robot phase writes `ROB` and only at an index below `NR`, only the
ball phase writes `BAL` and only at an index below `NB`, from any state that meets the invariant. -/
def Obligations.ListWritesStayBelowTheCounts : Prop :=
  ∀ s t : State, StateInv s → step s = .next t → t.fresh = s.fresh →
    (∀ i, ¬(s.st = .decoding ∧ s.frame.ph = .rob ∧ i < s.frame.nr.toNat) → t.frame.rob[i]? = s.frame.rob[i]?) ∧
    (∀ i, ¬(s.st = .decoding ∧ s.frame.ph = .bal ∧ i < s.frame.nb.toNat) → t.frame.bal[i]? = s.frame.bal[i]?)

/-- R127: the whole-frame view. From `SYNCED`, `FRAME` and then the bytes `t` of a frame (exactly as many as R127 says),
with any commands but `ABORT` between them, end in `SYNCED` with `JS = 0` and the snapshot of R127 published; before the
last of them the block is still decoding, with nothing published; and if `LL` comes first the result is `FAULTED` with
nothing published. The premise on `BAL` is the invariant that the store has its fixed size. -/
def Obligations.FrameDecodeAgreesWithTheWholeFrameView : Prop :=
  ∀ (s : State) (t : List Byte) (rest : Feed Byte),
    s.st = .synced → s.cfg.withFrameLayer = true → s.cfg.layoutKnown = true → BallsSized s →
    t.length = formLength s.cfg s.frame.js t → Delivers s.env.stream t rest →
    (∀ (n : Nat) (pre : List Turn) (ts : Feed Turn), Feeds pre n → n + 1 = t.length →
      Presents s.env.turns (issue .frame :: (pre ++ [.deliver])) ts →
      (∀ j, j ≤ pre.length → ∃ u, runs (j + 1) s = .next u ∧ u.st = .decoding ∧ u.frame.pub = s.frame.pub ∧
        u.frame.pubValid = s.frame.pubValid ∧ u.ghost.pubCount = s.ghost.pubCount) ∧
      ∃ u, runs (pre.length + 2) s = .next u ∧ u.st = .synced ∧ u.frame.js = false ∧ u.frame.pubValid = true ∧
        u.frame.pub = formSnapshot s.cfg s.frame.js t ∧ u.ghost.pubCount = s.ghost.pubCount + 1 ∧
        u.ghost.consumed = s.ghost.consumed + t.length ∧ u.out.evFrame = true ∧
        u.env = { turns := ts, stream := rest }) ∧
    (∀ (n : Nat) (pre : List Turn) (ts : Feed Turn), Feeds pre n → n < t.length →
      Presents s.env.turns (issue .frame :: (pre ++ [.linkLost])) ts →
      ∃ u, runs (pre.length + 2) s = .next u ∧ u.st = .faulted ∧ u.cause = .linkLost ∧ u.frame.pub = s.frame.pub ∧
        u.frame.pubValid = s.frame.pubValid ∧ u.ghost.pubCount = s.ghost.pubCount ∧
        u.ghost.consumed = s.ghost.consumed + n)

/-- The headline: a block that joins the stream in the middle of a frame, with no marker pair before the first true
boundary (the premise R156 asks for), and is given `FRAMEX` (R81), publishes exactly the frame the sender laid out, its
counts being within capacity and equal to its lists. In a build with the robot list; the other layout is in the whole-frame
view. -/
def Obligations.JoinedMidFrameTheNextFrameIsPublished : Prop :=
  ∀ (s : State) (junk : List Byte) (rest : Feed Byte) (f : WireFrame) (ts : Feed Turn),
    s.st = .unsynced → s.cfg.withFrameLayer = true → s.cfg.withRobotList = true → BallsSized s →
    firstPair (junk ++ [0xFF, 0xFF]) = some (junk.length + 1) →
    f.numRobots.toNat = f.robots.length → f.robots.length ≤ 10 →
    f.numBalls.toNat = f.balls.length → f.balls.length ≤ s.cfg.maxBalls →
    Presents s.env.turns (framex s.st (junk.length + 2) f.payload.length) ts →
    Delivers s.env.stream (junk ++ f.bytes) rest →
    ∃ u, runs (junk.length + f.payload.length + 4) s = .next u ∧ u.st = .synced ∧ u.frame.js = false ∧
      u.readSnapshot = some (f.snapshot s.cfg) ∧ u.env = { turns := ts, stream := rest }

/-- R125, R126: a frame abandoned by `LinkLost` or `ABORT` publishes nothing and leaves the snapshot, its valid bit, the
lists and the number of publishes as they were. -/
def Obligations.AbandonedFramePublishesNothing : Prop :=
  ∀ (s : State) (e : Event), s.st = .decoding → e = .linkLost ∨ e = .command (encode .abort) →
    ∃ t, onEvent e s = .next t ∧ t.frame.pub = s.frame.pub ∧ t.frame.pubValid = s.frame.pubValid ∧
      t.frame.rob = s.frame.rob ∧ t.frame.bal = s.frame.bal ∧ t.ghost = s.ghost ∧ t.out.evFrame = false ∧
      (t.st = .faulted ∨ t.st = .unsynced)

/-- R5, R16: without the frame layer no step touches its state and `DECODING` is unreachable. -/
def Obligations.WithoutFrameLayerItsStateIsUntouched : Prop :=
  ∀ s t : State, s.cfg.withFrameLayer = false → s.st ≠ .decoding → step s = .next t →
    t.frame = s.frame ∧ t.st ≠ .decoding ∧ t.out.evFrame = false

/-! ## Faults and reset (60_exceptions.md, 70_reset_and_hazards.md) -/

/-- R134: taking `LinkLost` in each non-faulted state, and no change in `FAULTED`. -/
def Obligations.LinkLostEntersFaulted : Prop :=
  ∀ s : State,
    (s.st ≠ .faulted → s.cfg.withFrameLayer = true →
      onEvent .linkLost s = .next { s with
        st := .faulted, cause := .linkLost, lv := false, frame := { s.frame with js := false, cnt := 0 },
        out := { Outputs.quiet with evFault := true } }) ∧
    (s.st ≠ .faulted → s.cfg.withFrameLayer = false →
      onEvent .linkLost s = .next { s with
        st := .faulted, cause := .linkLost, lv := false, out := { Outputs.quiet with evFault := true } }) ∧
    (s.st = .faulted → onEvent .linkLost s = .next { s with out := Outputs.quiet })

/-- R140: `FAULTED` is left only by `RESET`: every other event leaves the whole state but the outputs as it was; `SYNC`,
`ABORT` and `FRAME` are refused, `DECLIN` and `DECANG` are performed, `RX` is not enabled, `LL` has no effect and the
published snapshot stays readable. That a byte presented all the same stops by the name rxNotEnabled is the model's
choice (log 13). -/
def Obligations.FaultedIsLeftOnlyByReset : Prop :=
  ∀ s : State, s.st = .faulted →
    (∀ (t : State) (e : Event), e ≠ .reset → onEvent e s = .next t →
      t = { s with out := t.out } ∧ t.st = .faulted ∧ t.readSnapshot = s.readSnapshot ∧
      t.out.evFault = false ∧ t.out.evSync = false ∧ t.out.evFrame = false) ∧
    (∃ t, onEvent .reset s = .next t ∧ t.st = .unsynced) ∧
    (∀ i ∈ [Instr.sync, .abort, .frame], exec i s = .next { s with out := { Outputs.quiet with refused := true } }) ∧
    (∀ b n, exec (.declin b) s = .next { s with out := { Outputs.quiet with res := some (lin b) } } ∧
      exec (.decang b n) s = .next { s with out := { Outputs.quiet with res := some (angle s.cfg.angleTable b n) } }) ∧
    (∀ b, onEvent (.rx b) s = .fault .rxNotEnabled) ∧
    onEvent .linkLost s = .next { s with out := Outputs.quiet }

/-- R132, R129, the whole machine: the block enters `FAULTED` only on the event `LL`: no byte value and no command does
it. -/
def Obligations.OnlyLinkLostFaults : Prop :=
  ∀ (s t : State) (e : Event), onEvent e s = .next t → t.st = .faulted → s.st ≠ .faulted → e = .linkLost

/-- R151: `RESET` from any state: every value the rule gives; the build, the stream and the turns to come are not touched.
The registers the rule calls unspecified are free values, of which nothing is said. -/
def Obligations.ResetReachesTheInitialState : Prop :=
  ∀ s : State, ∃ t, onEvent .reset s = .next t ∧
    t.st = .unsynced ∧ t.cause = .none ∧ t.lv = false ∧
    (s.cfg.withFrameLayer = true → t.frame.js = false ∧ t.frame.pubValid = false) ∧
    t.ghost.consumed = 0 ∧ t.ghost.syncEvents = 0 ∧ t.ghost.pubCount = 0 ∧ t.ghost.huntStart = 0 ∧
    t.out = Outputs.quiet ∧ t.cfg = s.cfg ∧ t.env = s.env

/-- R38: the values the table gives after reset, in every build. -/
def Obligations.ResetStateHoldsTheGivenValues : Prop :=
  ∀ (c : Config) (e : Env),
    (State.resetIn c e).st = .unsynced ∧ (State.resetIn c e).lv = false ∧ (State.resetIn c e).cause = .none ∧
    (State.resetIn c e).frame.js = false ∧ (State.resetIn c e).frame.pubValid = false ∧
    (State.resetIn c e).ghost.consumed = 0 ∧ (State.resetIn c e).ghost.syncEvents = 0 ∧
    (State.resetIn c e).ghost.pubCount = 0 ∧ (State.resetIn c e).ghost.huntStart = 0 ∧
    (State.resetIn c e).stOut = 0 ∧ (State.resetIn c e).causeOut = 0

/-! ## Invariants and whole-machine rules -/

/-- R39: the invariants hold right after reset, in every build. -/
def Obligations.InvariantsHoldAtReset : Prop := ∀ (c : Config) (e : Env), StateInv (State.resetIn c e)

/-- R39: every step keeps the invariants, from every state that meets them, in every build and for every draw of the free
values; and so they hold in every reachable state. -/
def Obligations.EveryStepKeepsTheInvariants : Prop :=
  (∀ s t : State, StateInv s → step s = .next t → StateInv t) ∧ ∀ s : State, Reachable s → StateInv s

/-- R36, R39, R143: from a state that meets the invariant a step stops with a fault only when the block is stuck. It is
stuck, in any state, exactly when every turn that will ever come is a delivery (the free turns never are all deliveries
that cannot happen, log 6), and there is none, or the block does not pull, or the stream is at its end. -/
def Obligations.TheOnlyStopIsWaiting : Prop :=
  (∀ (s : State) (f : Fault), StateInv s → step s = .fault f → f = .stuck) ∧
  (∀ s : State, step s = .fault .stuck ↔
    (∀ k n, s.env.turns.later ≠ .free k n) ∧
    (∀ x ∈ s.env.turns.listed, x = .deliver) ∧ (∀ p, s.env.turns.later = .again p → ∀ x ∈ p, x = .deliver) ∧
    (nextTurn s.env.turns = none ∨ s.st.pulls = false ∨ nextByte s.env.stream = none))

/-- A step runs the decoded instruction: when the next turn presents a word that decodes to an operation of the build, the
step is that operation's meaning at the state with the turn taken; and a word placed by `withFetchWord` is that next
turn. -/
def Obligations.StepRunsTheDecodedCommand : Prop :=
  (∀ (s : State) (w : Word) (i : Instr) (ts : Feed Turn), nextTurn s.env.turns = some (.command w, ts) →
    decodeFor s.cfg.withFrameLayer w = .ok i →
    step s = exec i { s with env := { s.env with turns := ts } }) ∧
  (∀ (s : State) (w : Nat) (i : Instr), decodeFor s.cfg.withFrameLayer (BitVec.ofNat 16 w) = .ok i → w < 2 ^ 16 →
    step (s.withFetchWord 16 w) = exec i s)

/-- R44, R45, R48, the whole machine: a step takes at most one byte, always the next of the stream and only while the block
pulls, and `CONSUMED` counts it; nothing is ever written to the stream. -/
def Obligations.BytesAreTakenInStreamOrder : Prop :=
  ∀ s t : State, step s = .next t →
    (t.env.stream = s.env.stream ∧ (t.ghost.consumed = s.ghost.consumed ∨ t.fresh = s.fresh + 1 ∧ t.ghost.consumed = 0)) ∨
    (∃ b, nextByte s.env.stream = some (b, t.env.stream) ∧ s.st.pulls = true ∧ t.ghost.consumed = s.ghost.consumed + 1)

/-- R36: which events are enabled in which state: a byte exactly in `HUNT` and `DECODING`; a link loss in every state, with
no effect in `FAULTED`; a reset and a command in every state (a command never faults). That a byte presented where it is
not enabled stops by the name rxNotEnabled is the model's choice (log 13). -/
def Obligations.EventsAreEnabledByTheTable : Prop :=
  ∀ s : State,
    (∀ b, onEvent (.rx b) s = .fault .rxNotEnabled ↔ (s.st ≠ .hunt ∧ s.st ≠ .decoding)) ∧
    (∃ t, onEvent .linkLost s = .next t ∧ (s.st = .faulted → t = { s with out := Outputs.quiet })) ∧
    (∃ t, onEvent .reset s = .next t) ∧
    (∀ w f, onEvent (.command w) s ≠ .fault f)

/-- R28: `synced` and `fault` are functions of `ST`; `synced` becomes 1 only by the sync event, and becomes 0 only by
`ABORT`, `LinkLost` and reset; `fault` becomes 0 only by reset. And the level outputs `st[2:0]` and `cause[1:0]` carry the
codes of R23, R29 and R131, `cause` being 1 exactly in `FAULTED`, and otherwise 0, in every state that meets the
invariant. -/
def Obligations.StatusFlagsFollowTheControlState : Prop :=
  (∀ s : State, (s.syncedFlag = true ↔ s.st = .synced ∨ s.st = .decoding) ∧ (s.faultFlag = true ↔ s.st = .faulted)) ∧
  (∀ (s t : State) (e : Event), onEvent e s = .next t →
    (s.syncedFlag = false → t.syncedFlag = true → s.st = .hunt ∧ e = .rx 0xFF ∧ t.out.evSync = true) ∧
    (s.syncedFlag = true → t.syncedFlag = false → e = .command (encode .abort) ∨ e = .linkLost ∨ e = .reset) ∧
    (s.faultFlag = false → t.faultFlag = true → e = .linkLost) ∧
    (s.faultFlag = true → t.faultFlag = false → e = .reset)) ∧
  (∀ s : State,
    (s.st = .unsynced ↔ s.stOut = 0) ∧ (s.st = .hunt ↔ s.stOut = 1) ∧ (s.st = .synced ↔ s.stOut = 2) ∧
    (s.st = .decoding ↔ s.stOut = 3) ∧ (s.st = .faulted ↔ s.stOut = 4) ∧
    (s.cause = .none ↔ s.causeOut = 0) ∧ (s.cause = .linkLost ↔ s.causeOut = 1) ∧
    (s.cause = .oversizeCount ↔ s.causeOut = 2) ∧ (s.cause = .malformedRecord ↔ s.causeOut = 3) ∧
    (StateInv s → s.causeOut = if s.st = .faulted then 1 else 0))

/-- R123: the control state changes only by the listed transitions. -/
def Obligations.OnlyTheListedTransitions : Prop :=
  ∀ (s t : State) (e : Event), onEvent e s = .next t → t.st ≠ s.st → Transition s.st e t.st

/-- R40: each event output is true exactly for the step that made the change it reports; a result comes with exactly the
codec commands; and a refused step is a command's, and changes nothing but the outputs. -/
def Obligations.OutputsReportTheStep : Prop :=
  ∀ (s t : State) (e : Event), onEvent e s = .next t →
    (t.out.evSync = true ↔ s.st = .hunt ∧ t.st = .synced) ∧
    (t.out.evFrame = true ↔ s.st = .decoding ∧ t.st = .synced) ∧
    (t.out.evFault = true ↔ s.st ≠ .faulted ∧ t.st = .faulted) ∧
    (t.out.res ≠ none ↔ ∃ b n, e = .command (encode (.declin b)) ∨ e = .command (encode (.decang b n))) ∧
    (t.out.refused = true → ∃ w, e = .command w ∧ t = { s with out := t.out })

/-- R154: the parameters are fixed when the block is built: no step changes them. -/
def Obligations.ParametersNeverChange : Prop := ∀ s t : State, step s = .next t → t.cfg = s.cfg

/-- R38, R126: unspecified values are never observed: two states that differ only in values no rule reads before it is
written stay so, step by step, with equal outputs, equal control state, equal published snapshots, and equal stops. In
particular a claim about what is visible does not depend on the values reset leaves unspecified. -/
def Obligations.UnspecifiedValuesAreNeverObserved : Prop :=
  ∀ s t : State, SameVisible s t →
    (∀ s', step s = .next s' → ∃ t', step t = .next t' ∧ SameVisible s' t') ∧
    (∀ f, step s = .fault f → step t = .fault f) ∧
    (∀ r, step s = .refused r → step t = .refused r)

/-- R151: whatever the free values drawn, two states of one build with one environment, in a build with the frame layer,
are visibly the same after `RESET`, and visibly the same as the state after reset. -/
def Obligations.ResetDrawsAreNeverVisible : Prop :=
  ∀ s : State, s.cfg.withFrameLayer = true →
    ∃ t, onEvent .reset s = .next t ∧ SameVisible t (State.resetIn s.cfg s.env)

/-- R81: `RESYNC` from any non-faulted state restarts the hunt with an empty window: no partially read byte counts, nothing
is published, and no byte is taken. -/
def Obligations.ResyncRestartsTheHunt : Prop :=
  ∀ (s : State) (ts : Feed Turn), s.st ≠ .faulted → Presents s.env.turns resync ts →
    ∃ t, runs 2 s = .next t ∧ t.st = .hunt ∧ t.lv = false ∧ t.frame.pub = s.frame.pub ∧
      t.frame.pubValid = s.frame.pubValid ∧ t.frame.rob = s.frame.rob ∧ t.frame.bal = s.frame.bal ∧
      t.ghost.consumed = s.ghost.consumed ∧ t.ghost.huntStart = s.ghost.consumed ∧
      t.ghost.pubCount = s.ghost.pubCount ∧ t.env = { s.env with turns := ts }

/-- R139, in the non-normative binding of R165 (log 10): in one cycle a byte offered together with `link_lost` is not taken,
nor a byte offered together with `ABORT` in a non-faulted state; an `ABORT` offered together with `link_lost` comes after
it, so that it is refused in `FAULTED`; and `RESET` comes first of all: a link loss in the same cycle is taken after it,
and a `SYNC` in the same cycle starts a hunt from any state. -/
def Obligations.CycleEventsKeepTheirPriority : Prop :=
  ∀ (s : State) (b : Byte) (v : Bool),
    (∃ t, cycle { rst := false, linkLost := true, cmdValid := false, cmd := 0, rxValid := v, rxData := b } s = .next t ∧
      t.st = .faulted ∧ t.ghost.consumed = s.ghost.consumed) ∧
    (s.st ≠ .faulted →
      ∃ t, cycle { rst := false, linkLost := false, cmdValid := true, cmd := encode .abort, rxValid := v, rxData := b } s
        = .next t ∧ t.st = .unsynced ∧ t.ghost.consumed = s.ghost.consumed) ∧
    (s.st ≠ .faulted →
      ∃ t, cycle { rst := false, linkLost := true, cmdValid := true, cmd := encode .abort, rxValid := v, rxData := b } s
        = .next t ∧ t.st = .faulted ∧ t.out.evFault = true ∧ t.out.refused = true ∧
        t.ghost.consumed = s.ghost.consumed) ∧
    (∃ t, cycle { rst := true, linkLost := true, cmdValid := false, cmd := 0, rxValid := v, rxData := b } s = .next t ∧
      t.st = .faulted ∧ t.ghost.consumed = 0 ∧ t.out.evFault = true) ∧
    (∃ t, cycle { rst := true, linkLost := false, cmdValid := true, cmd := encode .sync, rxValid := false, rxData := b } s
      = .next t ∧ t.st = .hunt ∧ t.out.refused = false)
end

