-- ==== Sys2Proof/Laws/Codec.lean ====
section
/-! SUPPORT. Laws/Codec.lean: the finite facts about `LIN` and the two magnitude tables that later proofs cite in place of
unfolding the codec, each evaluated once over the 256 bytes. -/

namespace Sys2Proof.Machine

open Sys2Proof

/-! ## LIN (R99) -/

/-- Plain, positive, and exactly half the byte in units of `2^-150`. -/
theorem lin_facts : ∀ b : Byte,
    F32Plain (lin b) ∧ f32Sign (lin b) = false ∧ f32Units (lin b) = b.toNat * 2 ^ 149 := by decide +kernel

theorem lin_plain (b : Byte) : F32Plain (lin b) := (lin_facts b).1
theorem lin_sign (b : Byte) : f32Sign (lin b) = false := (lin_facts b).2.1
theorem lin_units (b : Byte) : f32Units (lin b) = b.toNat * 2 ^ 149 := (lin_facts b).2.2

/-! ## The magnitude tables (R98, R106) -/

/-- Plain, positive, and within half a unit in the last place of the exact product, scaled to units of `2^-150`. -/
theorem amag_facts : ∀ b : Byte,
    F32Plain (amag b) ∧ f32Sign (amag b) = false ∧
    2 * f32Units (amag b) ≤ 2 * (b.toNat * k32Significand * 2 ^ 120) + 2 ^ f32Exp (amag b) ∧
    2 * (b.toNat * k32Significand * 2 ^ 120) ≤ 2 * f32Units (amag b) + 2 ^ f32Exp (amag b) := by decide +kernel

theorem amag_plain (b : Byte) : F32Plain (amag b) := (amag_facts b).1
theorem amag_sign (b : Byte) : f32Sign (amag b) = false := (amag_facts b).2.1

/-! ## The signed result (R100, R101) -/

theorem angle_sign (t : AngleTable) (b : Byte) (n : Bool) : f32Sign (angle t b n) = n := by
  simp only [f32Sign, angle, BitVec.getLsbD_append]
  cases n <;> simp

theorem angle_exp (t : AngleTable) (b : Byte) (n : Bool) : f32Exp (angle t b n) = f32Exp (angleMag t b) := by
  have h : (angle t b n).extractLsb' 23 8 = (angleMag t b).extractLsb' 23 8 := by
    ext i hi
    simp only [angle, BitVec.getElem_extractLsb', BitVec.getLsbD_append, BitVec.getLsbD_extractLsb']
    simp [show 23 + i < 31 by omega]
  simp [f32Exp, h]

theorem angle_frac (t : AngleTable) (b : Byte) (n : Bool) : f32Frac (angle t b n) = f32Frac (angleMag t b) := by
  have h : (angle t b n).extractLsb' 0 23 = (angleMag t b).extractLsb' 0 23 := by
    ext i hi
    simp only [angle, BitVec.getElem_extractLsb', BitVec.getLsbD_append, BitVec.getLsbD_extractLsb']
    simp [show i < 31 by omega]
  simp [f32Frac, h]

theorem angle_units (t : AngleTable) (b : Byte) (n : Bool) : f32Units (angle t b n) = f32Units (angleMag t b) := by
  simp [f32Units, angle_exp, angle_frac]

end Sys2Proof.Machine
end

