-- ==== Sys2Proof/Laws/Decode.lean ====
section
/-! SUPPORT. Laws/Decode.lean: the fields of an assembled word, and a word assembled again from its fields (R72). -/

namespace Sys2Proof

/-- R72: the bits of an assembled word. -/
theorem c16_getLsbD (op : BitVec 4) (n : Bool) (b : Byte) (i : Nat) :
    (c16 op n b).getLsbD i =
      if i < 8 then b.getLsbD i else if i < 9 then n else if i < 12 then false else op.getLsbD (i - 12) := by
  have h : (c16 op n b).getLsbD i = ((op ++ (0 : BitVec 3)) ++ BitVec.ofBool n ++ b).getLsbD i := rfl
  rw [h, BitVec.getLsbD_append, BitVec.getLsbD_append, BitVec.getLsbD_append]
  by_cases h8 : i < 8
  · simp [h8]
  · by_cases h9 : i < 9
    · have : i = 8 := by omega
      subst this; simp
    · by_cases h12 : i < 12
      · simp [h8, h9, h12, show ¬ i - 8 < 1 by omega, show i - 8 - 1 < 3 by omega]
      · simp [h8, h9, h12, show ¬ i - 8 < 1 by omega, show ¬ i - 8 - 1 < 3 by omega,
          show i - 8 - 1 - 3 = i - 12 by omega]

@[simp] theorem opField_c16 (op : BitVec 4) (n : Bool) (b : Byte) : opField (c16 op n b) = op := by
  apply BitVec.eq_of_getLsbD_eq; intro i hi
  rw [opField, BitVec.getLsbD_extractLsb', c16_getLsbD]
  simp [hi, show ¬ 12 + i < 8 by omega, show ¬ 12 + i < 9 by omega]

@[simp] theorem zField_c16 (op : BitVec 4) (n : Bool) (b : Byte) : zField (c16 op n b) = 0 := by
  apply BitVec.eq_of_getLsbD_eq; intro i hi
  rw [zField, BitVec.getLsbD_extractLsb', c16_getLsbD]
  simp [show ¬ 9 + i < 8 by omega, show 9 + i < 12 by omega]

@[simp] theorem nField_c16 (op : BitVec 4) (n : Bool) (b : Byte) : nField (c16 op n b) = n := by
  rw [nField, c16_getLsbD]; simp

@[simp] theorem bField_c16 (op : BitVec 4) (n : Bool) (b : Byte) : bField (c16 op n b) = b := by
  apply BitVec.eq_of_getLsbD_eq; intro i hi
  rw [bField, BitVec.getLsbD_extractLsb', c16_getLsbD]
  simp [hi]

/-- R72: a word whose `Z` is zero is its other three fields. -/
theorem c16_fields (w : Word) (hz : zField w = 0) : c16 (opField w) (nField w) (bField w) = w := by
  apply BitVec.eq_of_getLsbD_eq; intro i hi
  rw [c16_getLsbD]
  by_cases h8 : i < 8
  · simp [h8, bField]
  · by_cases h9 : i < 9
    · have : i = 8 := by omega
      subst this; simp [nField]
    · by_cases h12 : i < 12
      · have h := congrArg (fun v => v.getLsbD (i - 9)) hz
        simp only [zField, BitVec.getLsbD_extractLsb', show i - 9 < 3 by omega, decide_true, Bool.true_and,
          show 9 + (i - 9) = i by omega] at h
        simp [h8, h9, h12, h]
      · simp [h8, h9, h12, opField, show i - 12 < 4 by omega, show 12 + (i - 12) = i by omega]

end Sys2Proof
end

