-- ==== Sys2Proof/Laws/Feed.lean ====
section
/-! SUPPORT. Laws/Feed.lean: how a sequence gives its elements, said once for the three ways it can go on. -/

namespace Sys2Proof.Machine

open Sys2Proof

variable {α : Type} {free : Nat → Nat → α}

@[simp] theorem Feed.next_cons (x : α) (xs : List α) (l : Later α) :
    Feed.next free { listed := x :: xs, later := l } = some (x, { listed := xs, later := l }) := rfl

@[simp] theorem Feed.next_ends : Feed.next free { listed := [], later := .ends } = none := rfl

@[simp] theorem Feed.next_again_nil : Feed.next free { listed := [], later := .again [] } = none := rfl

@[simp] theorem Feed.next_again (x : α) (xs : List α) :
    Feed.next free { listed := [], later := .again (x :: xs) } = some (x, { listed := xs, later := .again (x :: xs) }) := rfl

@[simp] theorem Feed.next_free (k n : Nat) :
    Feed.next free { listed := [], later := .free k n } = some (free k n, { listed := [], later := .free k (n + 1) }) := rfl

@[simp] theorem Feed.next_push (x : α) (f : Feed α) : Feed.next free (f.push x) = some (x, f) := rfl

@[simp] theorem Feed.starts_nil (f g : Feed α) : f.Starts free [] g ↔ f = g := Iff.rfl

theorem Feed.starts_cons {f g : Feed α} {x : α} {xs : List α} :
    f.Starts free (x :: xs) g ↔ ∃ h, f.next free = some (x, h) ∧ h.Starts free xs g := Iff.rfl

/-- A sequence that begins with `xs ++ ys` begins with `xs` and goes on with `ys`. -/
theorem Feed.starts_append {f g : Feed α} {xs ys : List α} :
    f.Starts free (xs ++ ys) g ↔ ∃ h, f.Starts free xs h ∧ h.Starts free ys g := by
  induction xs generalizing f with
  | nil => simp
  | cons x xs ih => simp only [List.cons_append, Feed.starts_cons, ih]; grind

/-- Listed elements come first. -/
theorem Feed.starts_listed (xs ys : List α) (l : Later α) :
    Feed.Starts free { listed := xs ++ ys, later := l } xs { listed := ys, later := l } := by
  induction xs with
  | nil => rfl
  | cons x xs ih => exact ⟨_, rfl, ih⟩

/-- One element that comes again comes any number of times. -/
theorem Feed.starts_again (x : α) (n : Nat) :
    Feed.Starts free { listed := [], later := .again [x] } (List.replicate n x) { listed := [], later := .again [x] } := by
  induction n with
  | zero => rfl
  | succ n ih => exact ⟨_, rfl, ih⟩

/-- What a sequence begins with, and how it goes on, is determined by the number of elements. -/
theorem Feed.starts_unique {f g g' : Feed α} {xs ys : List α} (h : f.Starts free xs g) (h' : f.Starts free ys g')
    (hl : xs.length = ys.length) : xs = ys ∧ g = g' := by
  induction xs generalizing f ys with
  | nil =>
    cases ys with
    | nil => exact ⟨rfl, h.symm.trans h'⟩
    | cons => simp at hl
  | cons x xs ih =>
    cases ys with
    | nil => simp at hl
    | cons y ys =>
      obtain ⟨a, ha, h⟩ := h
      obtain ⟨b, hb, h'⟩ := h'
      obtain ⟨rfl, rfl⟩ : x = y ∧ a = b := by simpa [ha] using hb
      obtain ⟨rfl, rfl⟩ := ih h h' (by simpa using hl)
      exact ⟨rfl, rfl⟩

end Sys2Proof.Machine
end

