-- ==== Sys2Proof/Laws/State.lean ====
section
/-! SUPPORT. Laws/State.lean: one lemma per field of State per update the shared operations make, so that no later proof
unfolds a record update: each is true by `rfl`. -/

namespace Sys2Proof.Machine

open Sys2Proof

/-! ### State.withOut -/

@[simp] theorem State.withOut_cfg (s : State) (o : Outputs) : (s.withOut o).cfg = s.cfg := rfl
@[simp] theorem State.withOut_st (s : State) (o : Outputs) : (s.withOut o).st = s.st := rfl
@[simp] theorem State.withOut_last (s : State) (o : Outputs) : (s.withOut o).last = s.last := rfl
@[simp] theorem State.withOut_lv (s : State) (o : Outputs) : (s.withOut o).lv = s.lv := rfl
@[simp] theorem State.withOut_cause (s : State) (o : Outputs) : (s.withOut o).cause = s.cause := rfl
@[simp] theorem State.withOut_frame (s : State) (o : Outputs) : (s.withOut o).frame = s.frame := rfl
@[simp] theorem State.withOut_ghost (s : State) (o : Outputs) : (s.withOut o).ghost = s.ghost := rfl
@[simp] theorem State.withOut_out (s : State) (o : Outputs) : (s.withOut o).out = o := rfl
@[simp] theorem State.withOut_env (s : State) (o : Outputs) : (s.withOut o).env = s.env := rfl
@[simp] theorem State.withOut_fresh (s : State) (o : Outputs) : (s.withOut o).fresh = s.fresh := rfl

/-! ### refuse -/

@[simp] theorem refuse_cfg (s : State) : (refuse s).cfg = s.cfg := rfl
@[simp] theorem refuse_st (s : State) : (refuse s).st = s.st := rfl
@[simp] theorem refuse_last (s : State) : (refuse s).last = s.last := rfl
@[simp] theorem refuse_lv (s : State) : (refuse s).lv = s.lv := rfl
@[simp] theorem refuse_cause (s : State) : (refuse s).cause = s.cause := rfl
@[simp] theorem refuse_frame (s : State) : (refuse s).frame = s.frame := rfl
@[simp] theorem refuse_ghost (s : State) : (refuse s).ghost = s.ghost := rfl
@[simp] theorem refuse_out (s : State) : (refuse s).out = { Outputs.quiet with refused := true } := rfl
@[simp] theorem refuse_env (s : State) : (refuse s).env = s.env := rfl
@[simp] theorem refuse_fresh (s : State) : (refuse s).fresh = s.fresh := rfl

/-! ### deliver -/

@[simp] theorem deliver_cfg (r : F32) (s : State) : (deliver r s).cfg = s.cfg := rfl
@[simp] theorem deliver_st (r : F32) (s : State) : (deliver r s).st = s.st := rfl
@[simp] theorem deliver_last (r : F32) (s : State) : (deliver r s).last = s.last := rfl
@[simp] theorem deliver_lv (r : F32) (s : State) : (deliver r s).lv = s.lv := rfl
@[simp] theorem deliver_cause (r : F32) (s : State) : (deliver r s).cause = s.cause := rfl
@[simp] theorem deliver_frame (r : F32) (s : State) : (deliver r s).frame = s.frame := rfl
@[simp] theorem deliver_ghost (r : F32) (s : State) : (deliver r s).ghost = s.ghost := rfl
@[simp] theorem deliver_out (r : F32) (s : State) : (deliver r s).out = { Outputs.quiet with res := some r } := rfl
@[simp] theorem deliver_env (r : F32) (s : State) : (deliver r s).env = s.env := rfl
@[simp] theorem deliver_fresh (r : F32) (s : State) : (deliver r s).fresh = s.fresh := rfl

/-! ### State.withEnv -/

@[simp] theorem State.withEnv_cfg (s : State) (e : Env) : (s.withEnv e).cfg = s.cfg := rfl
@[simp] theorem State.withEnv_st (s : State) (e : Env) : (s.withEnv e).st = s.st := rfl
@[simp] theorem State.withEnv_last (s : State) (e : Env) : (s.withEnv e).last = s.last := rfl
@[simp] theorem State.withEnv_lv (s : State) (e : Env) : (s.withEnv e).lv = s.lv := rfl
@[simp] theorem State.withEnv_cause (s : State) (e : Env) : (s.withEnv e).cause = s.cause := rfl
@[simp] theorem State.withEnv_frame (s : State) (e : Env) : (s.withEnv e).frame = s.frame := rfl
@[simp] theorem State.withEnv_ghost (s : State) (e : Env) : (s.withEnv e).ghost = s.ghost := rfl
@[simp] theorem State.withEnv_out (s : State) (e : Env) : (s.withEnv e).out = s.out := rfl
@[simp] theorem State.withEnv_env (s : State) (e : Env) : (s.withEnv e).env = e := rfl
@[simp] theorem State.withEnv_fresh (s : State) (e : Env) : (s.withEnv e).fresh = s.fresh := rfl

/-! ### rxByte -/

@[simp] theorem rxByte_cfg (s : State) : (rxByte s).cfg = s.cfg := rfl
@[simp] theorem rxByte_st (s : State) : (rxByte s).st = s.st := rfl
@[simp] theorem rxByte_last (s : State) : (rxByte s).last = s.last := rfl
@[simp] theorem rxByte_lv (s : State) : (rxByte s).lv = s.lv := rfl
@[simp] theorem rxByte_cause (s : State) : (rxByte s).cause = s.cause := rfl
@[simp] theorem rxByte_frame (s : State) : (rxByte s).frame = s.frame := rfl
@[simp] theorem rxByte_ghost (s : State) : (rxByte s).ghost = { s.ghost with consumed := s.ghost.consumed + 1 } := rfl
@[simp] theorem rxByte_out (s : State) : (rxByte s).out = Outputs.quiet := rfl
@[simp] theorem rxByte_env (s : State) : (rxByte s).env = s.env := rfl
@[simp] theorem rxByte_fresh (s : State) : (rxByte s).fresh = s.fresh := rfl

/-! ### gather -/

@[simp] theorem gather_cfg (b : Byte) (s : State) : (gather b s).cfg = s.cfg := rfl
@[simp] theorem gather_st (b : Byte) (s : State) : (gather b s).st = s.st := rfl
@[simp] theorem gather_last (b : Byte) (s : State) : (gather b s).last = s.last := rfl
@[simp] theorem gather_lv (b : Byte) (s : State) : (gather b s).lv = s.lv := rfl
@[simp] theorem gather_cause (b : Byte) (s : State) : (gather b s).cause = s.cause := rfl
@[simp] theorem gather_frame (b : Byte) (s : State) : (gather b s).frame = { s.frame with
      scr := s.frame.scr.setIfInBounds s.frame.cnt.toNat b, cnt := s.frame.cnt + 1 } := rfl
@[simp] theorem gather_ghost (b : Byte) (s : State) : (gather b s).ghost = s.ghost := rfl
@[simp] theorem gather_out (b : Byte) (s : State) : (gather b s).out = s.out := rfl
@[simp] theorem gather_env (b : Byte) (s : State) : (gather b s).env = s.env := rfl
@[simp] theorem gather_fresh (b : Byte) (s : State) : (gather b s).fresh = s.fresh := rfl

/-! ### storeRobot -/

@[simp] theorem storeRobot_cfg (r : RobotInfo) (s : State) : (storeRobot r s).cfg = s.cfg := rfl
@[simp] theorem storeRobot_st (r : RobotInfo) (s : State) : (storeRobot r s).st = s.st := rfl
@[simp] theorem storeRobot_last (r : RobotInfo) (s : State) : (storeRobot r s).last = s.last := rfl
@[simp] theorem storeRobot_lv (r : RobotInfo) (s : State) : (storeRobot r s).lv = s.lv := rfl
@[simp] theorem storeRobot_cause (r : RobotInfo) (s : State) : (storeRobot r s).cause = s.cause := rfl
@[simp] theorem storeRobot_frame (r : RobotInfo) (s : State) : (storeRobot r s).frame = { s.frame with
      rob := s.frame.rob.setIfInBounds s.frame.idx.toNat r } := rfl
@[simp] theorem storeRobot_ghost (r : RobotInfo) (s : State) : (storeRobot r s).ghost = s.ghost := rfl
@[simp] theorem storeRobot_out (r : RobotInfo) (s : State) : (storeRobot r s).out = s.out := rfl
@[simp] theorem storeRobot_env (r : RobotInfo) (s : State) : (storeRobot r s).env = s.env := rfl
@[simp] theorem storeRobot_fresh (r : RobotInfo) (s : State) : (storeRobot r s).fresh = s.fresh := rfl

/-! ### storeBall -/

@[simp] theorem storeBall_cfg (v : Vector2D) (s : State) : (storeBall v s).cfg = s.cfg := rfl
@[simp] theorem storeBall_st (v : Vector2D) (s : State) : (storeBall v s).st = s.st := rfl
@[simp] theorem storeBall_last (v : Vector2D) (s : State) : (storeBall v s).last = s.last := rfl
@[simp] theorem storeBall_lv (v : Vector2D) (s : State) : (storeBall v s).lv = s.lv := rfl
@[simp] theorem storeBall_cause (v : Vector2D) (s : State) : (storeBall v s).cause = s.cause := rfl
@[simp] theorem storeBall_frame (v : Vector2D) (s : State) : (storeBall v s).frame = { s.frame with bal := s.frame.bal.set s.frame.idx.toNat v } := rfl
@[simp] theorem storeBall_ghost (v : Vector2D) (s : State) : (storeBall v s).ghost = s.ghost := rfl
@[simp] theorem storeBall_out (v : Vector2D) (s : State) : (storeBall v s).out = s.out := rfl
@[simp] theorem storeBall_env (v : Vector2D) (s : State) : (storeBall v s).env = s.env := rfl
@[simp] theorem storeBall_fresh (v : Vector2D) (s : State) : (storeBall v s).fresh = s.fresh := rfl

/-! ### goTo -/

@[simp] theorem goTo_cfg (p : Phase) (i : Byte) (s : State) : (goTo p i s).cfg = s.cfg := rfl
@[simp] theorem goTo_st (p : Phase) (i : Byte) (s : State) : (goTo p i s).st = s.st := rfl
@[simp] theorem goTo_last (p : Phase) (i : Byte) (s : State) : (goTo p i s).last = s.last := rfl
@[simp] theorem goTo_lv (p : Phase) (i : Byte) (s : State) : (goTo p i s).lv = s.lv := rfl
@[simp] theorem goTo_cause (p : Phase) (i : Byte) (s : State) : (goTo p i s).cause = s.cause := rfl
@[simp] theorem goTo_frame (p : Phase) (i : Byte) (s : State) : (goTo p i s).frame = { s.frame with ph := p, cnt := 0, idx := i } := rfl
@[simp] theorem goTo_ghost (p : Phase) (i : Byte) (s : State) : (goTo p i s).ghost = s.ghost := rfl
@[simp] theorem goTo_out (p : Phase) (i : Byte) (s : State) : (goTo p i s).out = s.out := rfl
@[simp] theorem goTo_env (p : Phase) (i : Byte) (s : State) : (goTo p i s).env = s.env := rfl
@[simp] theorem goTo_fresh (p : Phase) (i : Byte) (s : State) : (goTo p i s).fresh = s.fresh := rfl

/-! ### storeHeader -/

@[simp] theorem storeHeader_cfg (b : Byte) (s : State) : (storeHeader b s).cfg = s.cfg := rfl
@[simp] theorem storeHeader_st (b : Byte) (s : State) : (storeHeader b s).st = s.st := rfl
@[simp] theorem storeHeader_last (b : Byte) (s : State) : (storeHeader b s).last = s.last := rfl
@[simp] theorem storeHeader_lv (b : Byte) (s : State) : (storeHeader b s).lv = s.lv := rfl
@[simp] theorem storeHeader_cause (b : Byte) (s : State) : (storeHeader b s).cause = s.cause := rfl
@[simp] theorem storeHeader_frame (b : Byte) (s : State) : (storeHeader b s).frame = { s.frame with
      nr := clamp s.frame.scr[0] maxRobots, nb := clamp b s.cfg.maxBalls, cnt := 0, idx := 0 } := rfl
@[simp] theorem storeHeader_ghost (b : Byte) (s : State) : (storeHeader b s).ghost = s.ghost := rfl
@[simp] theorem storeHeader_out (b : Byte) (s : State) : (storeHeader b s).out = s.out := rfl
@[simp] theorem storeHeader_env (b : Byte) (s : State) : (storeHeader b s).env = s.env := rfl
@[simp] theorem storeHeader_fresh (b : Byte) (s : State) : (storeHeader b s).fresh = s.fresh := rfl

/-! ### finish -/

@[simp] theorem finish_cfg (s : State) : (finish s).cfg = s.cfg := rfl
@[simp] theorem finish_st (s : State) : (finish s).st = .synced := rfl
@[simp] theorem finish_last (s : State) : (finish s).last = s.last := rfl
@[simp] theorem finish_lv (s : State) : (finish s).lv = s.lv := rfl
@[simp] theorem finish_cause (s : State) : (finish s).cause = s.cause := rfl
@[simp] theorem finish_frame (s : State) : (finish s).frame = { s.frame with js := false, cnt := 0, pubValid := true, pub := snapshotOf s } := rfl
@[simp] theorem finish_ghost (s : State) : (finish s).ghost = { s.ghost with pubCount := s.ghost.pubCount + 1 } := rfl
@[simp] theorem finish_out (s : State) : (finish s).out = { Outputs.quiet with evFrame := true } := rfl
@[simp] theorem finish_env (s : State) : (finish s).env = s.env := rfl
@[simp] theorem finish_fresh (s : State) : (finish s).fresh = s.fresh := rfl

/-! ### takeReset -/

@[simp] theorem takeReset_cfg (s : State) : (takeReset s).cfg = s.cfg := rfl
@[simp] theorem takeReset_st (s : State) : (takeReset s).st = .unsynced := rfl
@[simp] theorem takeReset_last (s : State) : (takeReset s).last = Config.freeLast s.fresh := rfl
@[simp] theorem takeReset_lv (s : State) : (takeReset s).lv = false := rfl
@[simp] theorem takeReset_cause (s : State) : (takeReset s).cause = .none := rfl
@[simp] theorem takeReset_frame (s : State) : (takeReset s).frame = if s.cfg.withFrameLayer then FrameLayer.unspecified s.cfg s.fresh else s.frame := rfl
@[simp] theorem takeReset_ghost (s : State) : (takeReset s).ghost = Ghosts.reset := rfl
@[simp] theorem takeReset_out (s : State) : (takeReset s).out = Outputs.quiet := rfl
@[simp] theorem takeReset_env (s : State) : (takeReset s).env = s.env := rfl
@[simp] theorem takeReset_fresh (s : State) : (takeReset s).fresh = s.fresh + 1 := rfl

/-! ### syncEvent -/

@[simp] theorem syncEvent_cfg (s : State) : (syncEvent s).cfg = s.cfg := rfl
@[simp] theorem syncEvent_st (s : State) : (syncEvent s).st = .synced := rfl
@[simp] theorem syncEvent_last (s : State) : (syncEvent s).last = s.last := rfl
@[simp] theorem syncEvent_lv (s : State) : (syncEvent s).lv = s.lv := rfl
@[simp] theorem syncEvent_cause (s : State) : (syncEvent s).cause = s.cause := rfl
@[simp] theorem syncEvent_frame (s : State) : (syncEvent s).frame = { s.frame with js := if s.cfg.withFrameLayer then true else s.frame.js } := rfl
@[simp] theorem syncEvent_ghost (s : State) : (syncEvent s).ghost = { s.ghost with syncEvents := s.ghost.syncEvents + 1 } := rfl
@[simp] theorem syncEvent_out (s : State) : (syncEvent s).out = { Outputs.quiet with evSync := true } := rfl
@[simp] theorem syncEvent_env (s : State) : (syncEvent s).env = s.env := rfl
@[simp] theorem syncEvent_fresh (s : State) : (syncEvent s).fresh = s.fresh := rfl

/-! ### skipByte -/

@[simp] theorem skipByte_cfg (s : State) : (skipByte s).cfg = s.cfg := rfl
@[simp] theorem skipByte_st (s : State) : (skipByte s).st = s.st := rfl
@[simp] theorem skipByte_last (s : State) : (skipByte s).last = s.last := rfl
@[simp] theorem skipByte_lv (s : State) : (skipByte s).lv = s.lv := rfl
@[simp] theorem skipByte_cause (s : State) : (skipByte s).cause = s.cause := rfl
@[simp] theorem skipByte_frame (s : State) : (skipByte s).frame = { s.frame with
      cnt := if s.frame.cnt = 0 then 1 else 0,
      ph  := if s.frame.cnt = 0 then s.frame.ph else .hdr } := rfl
@[simp] theorem skipByte_ghost (s : State) : (skipByte s).ghost = s.ghost := rfl
@[simp] theorem skipByte_out (s : State) : (skipByte s).out = s.out := rfl
@[simp] theorem skipByte_env (s : State) : (skipByte s).env = s.env := rfl
@[simp] theorem skipByte_fresh (s : State) : (skipByte s).fresh = s.fresh := rfl

/-! ### dropFrame -/

@[simp] theorem dropFrame_frame (s : State) : (dropFrame s).frame = { s.frame with
      js := if s.cfg.withFrameLayer then false else s.frame.js,
      cnt := if s.cfg.withFrameLayer then 0 else s.frame.cnt } := rfl
@[simp] theorem dropFrame_cfg (s : State) : (dropFrame s).cfg = s.cfg := rfl
@[simp] theorem dropFrame_st (s : State) : (dropFrame s).st = s.st := rfl
@[simp] theorem dropFrame_last (s : State) : (dropFrame s).last = s.last := rfl
@[simp] theorem dropFrame_lv (s : State) : (dropFrame s).lv = s.lv := rfl
@[simp] theorem dropFrame_cause (s : State) : (dropFrame s).cause = s.cause := rfl
@[simp] theorem dropFrame_ghost (s : State) : (dropFrame s).ghost = s.ghost := rfl
@[simp] theorem dropFrame_out (s : State) : (dropFrame s).out = s.out := rfl
@[simp] theorem dropFrame_env (s : State) : (dropFrame s).env = s.env := rfl
@[simp] theorem dropFrame_fresh (s : State) : (dropFrame s).fresh = s.fresh := rfl

end Sys2Proof.Machine
end

