-- ==== Sys2Proof/Laws/Ops.lean ====
section
/-! SUPPORT. Laws/Ops.lean: what each shared operation and each meaning can do, said once: an equation where there is one
outcome, an inversion lemma ("if it answers next t, then …") where there are several. -/

namespace Sys2Proof.Machine

open Sys2Proof

/-! ### Operands -/

/-- R116: the clamp is `min` over the naturals. -/
@[simp] theorem clamp_toNat (b : Byte) (n : Nat) : (clamp b n).toNat = min b.toNat n := by
  have : min b.toNat n < 2 ^ 8 := lt_of_le_of_lt (Nat.min_le_left _ _) b.isLt
  simp only [clamp, BitVec.toNat_ofNat]
  exact Nat.mod_eq_of_lt this

/-! ### LinkLost -/

theorem takeLinkLost_faulted {s : State} (h : s.st = .faulted) : takeLinkLost s = s.withOut Outputs.quiet := by
  simp [takeLinkLost, h]

theorem takeLinkLost_entry {s : State} (h : s.st ≠ .faulted) : takeLinkLost s =
    { dropFrame s with
      st := .faulted, cause := .linkLost, lv := false, out := { Outputs.quiet with evFault := true } } := by
  simp [takeLinkLost, h]

/-! ### The commands -/

/-- Everything `SYNC` can do. -/
theorem execSync_cases (s : State) :
    (s.st = .unsynced ∧ execSync s = .next { s with
      st := .hunt, lv := false,
      ghost := { s.ghost with huntStart := s.ghost.consumed, syncAccepts := s.ghost.syncAccepts + 1 },
      out := Outputs.quiet }) ∨
    (s.st ≠ .unsynced ∧ execSync s = .next (refuse s)) := by
  by_cases h : s.st = .unsynced <;> simp [execSync, h]

/-- Everything `ABORT` can do. -/
theorem execAbort_cases (s : State) :
    (s.st = .faulted ∧ execAbort s = .next (refuse s)) ∨
    (s.st ≠ .faulted ∧
      execAbort s = .next { dropFrame s with st := .unsynced, lv := false, out := Outputs.quiet }) := by
  by_cases h : s.st = .faulted <;> simp [execAbort, h]

/-- Everything `FRAME` can do. -/
theorem execFrame_cases (s : State) :
    (s.st = .synced ∧ s.cfg.withFrameLayer = true ∧ s.cfg.layoutKnown = true ∧
      execFrame s = .next { goTo (if s.frame.js then .hdr else .skip) 0 s with
        st := .decoding, out := Outputs.quiet }) ∨
    (s.st = .synced ∧ s.cfg.withFrameLayer = true ∧ s.cfg.layoutKnown = false ∧
      execFrame s = .refused .robotListLayoutUnknown) ∨
    (¬(s.st = .synced ∧ s.cfg.withFrameLayer = true) ∧ execFrame s = .next (refuse s)) := by
  by_cases h : s.st = .synced ∧ s.cfg.withFrameLayer = true
  · cases h2 : s.cfg.layoutKnown <;> simp [execFrame, h, h2]
  · exact .inr (.inr ⟨h, by simp [execFrame, h]⟩)

/-! ### The byte steps -/

/-- Both branches of the hunt step. -/
theorem huntStep_cases (b : Byte) (s : State) :
    (s.lv = true ∧ s.last = syncMarker ∧ b = syncMarker ∧ huntStep b s = syncEvent (rxByte s)) ∨
    (¬(s.lv = true ∧ s.last = syncMarker ∧ b = syncMarker) ∧
      huntStep b s = { rxByte s with last := b, lv := true }) := by
  by_cases h : s.lv = true ∧ s.last = syncMarker ∧ b = syncMarker
  · exact .inl ⟨h.1, h.2.1, h.2.2, by simp [huntStep, h]⟩
  · exact .inr ⟨h, by simp [huntStep, h]⟩

/-- Going on after the robots: the balls, or the publish. -/
theorem afterRobots_cases (s : State) :
    (0 < s.frame.nb.toNat ∧ afterRobots s = goTo .bal 0 s) ∨ (s.frame.nb.toNat = 0 ∧ afterRobots s = finish s) := by
  unfold afterRobots; split <;> simp <;> omega

/-- Everything the second header byte can do. -/
theorem headerByte_cases (b : Byte) (s : State) :
    (0 < robotsToRead (storeHeader b s) ∧ headerByte b s = goTo .rob 0 (storeHeader b s)) ∨
    (robotsToRead (storeHeader b s) = 0 ∧ headerByte b s = afterRobots (storeHeader b s)) := by
  unfold headerByte; split <;> simp <;> omega

/-- Everything the last byte of a robot record can do. -/
theorem robotByte_cases (b : Byte) (s : State) :
    (s.frame.idx.toNat + 1 < s.frame.nr.toNat ∧
      robotByte b s = goTo .rob (s.frame.idx + 1) (storeRobot (robotRecord b s) s)) ∨
    (s.frame.nr.toNat ≤ s.frame.idx.toNat + 1 ∧
      robotByte b s = afterRobots (storeRobot (robotRecord b s) s)) := by
  unfold robotByte; split <;> simp <;> omega

/-- Everything the last byte of a ball record can do. -/
theorem ballByte_cases (b : Byte) (s : State) :
    (s.frame.idx.toNat + 1 < s.frame.nb.toNat ∧
      ballByte b s = goTo .bal (s.frame.idx + 1) (storeBall (ballRecord b s) s)) ∨
    (s.frame.nb.toNat ≤ s.frame.idx.toNat + 1 ∧ ballByte b s = finish (storeBall (ballRecord b s) s)) := by
  unfold ballByte; split <;> simp <;> omega

/-- Everything a byte can do while a frame is decoded, stops included. -/
theorem decodeStep_cases (b : Byte) (s : State) :
    (s.frame.ph = .skip ∧ decodeStep b s = .next (skipByte (rxByte s))) ∨
    ((s.frame.ph = .hdr ∧ s.frame.cnt = 0 ∨ s.frame.ph = .rob ∧ s.frame.cnt.toNat < 4 ∨
        s.frame.ph = .bal ∧ s.frame.cnt = 0) ∧ decodeStep b s = .next (gather b (rxByte s))) ∨
    (s.frame.ph = .hdr ∧ s.frame.cnt = 1 ∧ decodeStep b s = .next (headerByte b (rxByte s))) ∨
    (s.frame.ph = .rob ∧ s.frame.cnt = 4 ∧ decodeStep b s = .next (robotByte b (rxByte s))) ∨
    (s.frame.ph = .bal ∧ s.frame.cnt = 1 ∧ decodeStep b s = .next (ballByte b (rxByte s))) ∨
    ((s.frame.ph = .rob → 4 < s.frame.cnt.toNat) ∧ (s.frame.ph ≠ .rob → 1 < s.frame.cnt.toNat) ∧
      decodeStep b s = .fault .noRule) := by
  have two : ∀ c : BitVec 3, c ≠ 0 → c ≠ 1 → 1 < c.toNat := by decide
  have five : ∀ c : BitVec 3, ¬ c.toNat < 4 → c ≠ 4 → 4 < c.toNat := by decide
  unfold decodeStep
  cases hp : s.frame.ph with
  | skip => exact .inl ⟨rfl, rfl⟩
  | hdr =>
    by_cases h0 : s.frame.cnt = 0
    · exact .inr (.inl ⟨.inl ⟨rfl, h0⟩, if_pos h0⟩)
    · by_cases h1 : s.frame.cnt = 1
      · exact .inr (.inr (.inl ⟨rfl, h1, (if_neg h0).trans (if_pos h1)⟩))
      · exact .inr (.inr (.inr (.inr (.inr
          ⟨by simp, fun _ => two _ h0 h1, (if_neg h0).trans (if_neg h1)⟩))))
  | rob =>
    by_cases h4 : s.frame.cnt.toNat < 4
    · exact .inr (.inl ⟨.inr (.inl ⟨rfl, h4⟩), if_pos h4⟩)
    · by_cases h1 : s.frame.cnt = 4
      · exact .inr (.inr (.inr (.inl ⟨rfl, h1, (if_neg h4).trans (if_pos h1)⟩)))
      · exact .inr (.inr (.inr (.inr (.inr
          ⟨fun _ => five _ h4 h1, by simp, (if_neg h4).trans (if_neg h1)⟩))))
  | bal =>
    by_cases h0 : s.frame.cnt = 0
    · exact .inr (.inl ⟨.inr (.inr ⟨rfl, h0⟩), if_pos h0⟩)
    · by_cases h1 : s.frame.cnt = 1
      · exact .inr (.inr (.inr (.inr (.inl ⟨rfl, h1, (if_neg h0).trans (if_pos h1)⟩))))
      · exact .inr (.inr (.inr (.inr (.inr
          ⟨by simp, fun _ => two _ h0 h1, (if_neg h0).trans (if_neg h1)⟩))))

/-! ### Events and the step -/

/-- What `CMD(w)` can do: the meaning of the decoded operation, or a refusal of the word. -/
theorem onCommand_cases (w : Word) (s : State) :
    (∃ i, decodeFor s.cfg.withFrameLayer w = .ok i ∧ onCommand w s = exec i s) ∨
    (∃ r, decodeFor s.cfg.withFrameLayer w = .error r ∧ onCommand w s = .next (refuse s)) := by
  unfold onCommand
  cases h : decodeFor s.cfg.withFrameLayer w with
  | ok i => exact .inl ⟨i, rfl, rfl⟩
  | error r => exact .inr ⟨r, rfl, rfl⟩

/-- What `RX(b)` can do, by the control state. -/
theorem onRx_cases (b : Byte) (s : State) :
    (s.st = .hunt ∧ onRx b s = .next (huntStep b s)) ∨ (s.st = .decoding ∧ onRx b s = decodeStep b s) ∨
    (s.st ≠ .hunt ∧ s.st ≠ .decoding ∧ onRx b s = .fault .rxNotEnabled) := by
  unfold onRx; cases h : s.st <;> simp

/-- A step that answers a next state takes one enabled event. -/
theorem step_next {s t : State} (h : step s = .next t) :
    ∃ e v, nextEvent s = some (e, v) ∧ onEvent e (s.withEnv v) = .next t := by
  unfold step stepEvent at h
  split at h
  · cases h
  · next e v hn => exact ⟨e, v, hn, h⟩

/-- The step, when the next event is known. -/
theorem step_of_nextEvent {s : State} {e : Event} {v : Env} (h : nextEvent s = some (e, v)) :
    step s = onEvent e (s.withEnv v) := by simp [step, stepEvent, h]

/-- With no enabled event to come the block is stuck. -/
theorem step_of_none {s : State} (h : nextEvent s = none) : step s = .fault .stuck := by
  simp [step, stepEvent, h]

/-- The stream after a turn's event: without its next byte for `RX`, and the same for every other event. -/
theorem turnEvent_stream {p : Bool} {bs r : Feed Byte} {x : Turn} {e : Event} (h : turnEvent p bs x = some (e, r)) :
    (∃ b, e = .rx b ∧ p = true ∧ nextByte bs = some (b, r)) ∨ ((∀ b, e ≠ .rx b) ∧ r = bs) := by
  cases x with
  | deliver =>
    simp only [turnEvent, deliverable] at h
    cases p with
    | false => simp at h
    | true =>
      cases hn : nextByte bs with
      | none => simp [hn] at h
      | some y =>
        simp only [hn, if_true, Option.some.injEq, Prod.mk.injEq] at h
        obtain ⟨rfl, rfl⟩ := h
        exact .inl ⟨_, rfl, rfl, rfl⟩
  | _ =>
    simp only [turnEvent, Option.some.injEq, Prod.mk.injEq] at h
    obtain ⟨rfl, rfl⟩ := h
    exact .inr ⟨by simp, rfl⟩

/-- A turn is no event exactly when it is a delivery that cannot happen. -/
theorem turnEvent_none_iff (p : Bool) (bs : Feed Byte) (x : Turn) :
    turnEvent p bs x = none ↔ x = .deliver ∧ (p = false ∨ nextByte bs = none) := by
  cases x <;> simp only [turnEvent, deliverable, reduceCtorEq, false_and, true_and]
  cases p <;> cases h : nextByte bs <;> simp

/-- The first event of a list of turns is the event of one of them. -/
theorem firstEvent_turn {p : Bool} {bs r : Feed Byte} {ts xs : List Turn} {e : Event}
    (h : firstEvent p bs ts = some (e, xs, r)) : ∃ x ∈ ts, turnEvent p bs x = some (e, r) := by
  induction ts with
  | nil => simp [firstEvent] at h
  | cons x ts ih =>
    unfold firstEvent at h
    split at h
    · next hx =>
      simp only [Option.some.injEq, Prod.mk.injEq] at h
      obtain ⟨rfl, rfl, rfl⟩ := h
      exact ⟨x, by simp, hx⟩
    · obtain ⟨y, hy, hx⟩ := ih h
      exact ⟨y, List.mem_cons_of_mem _ hy, hx⟩

/-- A list of turns holds no event exactly when none of its turns is one. -/
theorem firstEvent_none_iff (p : Bool) (bs : Feed Byte) (ts : List Turn) :
    firstEvent p bs ts = none ↔ ∀ x ∈ ts, turnEvent p bs x = none := by
  induction ts with
  | nil => simp [firstEvent]
  | cons x ts ih => unfold firstEvent; split <;> simp_all

/-- The next event of a state: a byte is the next of the stream of a pulling block; any other event leaves the stream. -/
theorem nextEvent_stream {s : State} {e : Event} {v : Env} (h : nextEvent s = some (e, v)) :
    (∃ b, e = .rx b ∧ s.st.pulls = true ∧ nextByte s.env.stream = some (b, v.stream)) ∨
    ((∀ b, e ≠ .rx b) ∧ v.stream = s.env.stream) := by
  unfold nextEvent laterEvent at h
  repeat' split at h
  all_goals cases h
  · next hf => obtain ⟨x, -, hx⟩ := firstEvent_turn hf; exact turnEvent_stream hx
  · next hf => obtain ⟨x, -, hx⟩ := firstEvent_turn hf; exact turnEvent_stream hx
  · next hx => exact turnEvent_stream hx
  · exact .inr ⟨by simp, rfl⟩

/-- When the next turn is an event, it is the next event, and the turns after it are what is left. -/
theorem nextEvent_of_next {s : State} {x : Turn} {ts : Feed Turn} {e : Event} {r : Feed Byte}
    (ht : nextTurn s.env.turns = some (x, ts)) (hx : turnEvent s.st.pulls s.env.stream x = some (e, r)) :
    nextEvent s = some (e, { turns := ts, stream := r }) := by
  obtain ⟨cfg, st, last, lv, cause, frame, ghost, out, ⟨⟨listed, later⟩, stream⟩, fresh⟩ := s
  simp only [nextTurn, nextEvent] at ht hx ⊢
  cases listed with
  | cons y ys =>
    obtain ⟨rfl, rfl⟩ : y = x ∧ _ = ts := by simpa [Feed.next] using ht
    simp [firstEvent, hx]
  | nil =>
    cases later with
    | ends => simp [Feed.next] at ht
    | again p =>
      cases p with
      | nil => simp [Feed.next] at ht
      | cons y ys =>
        obtain ⟨rfl, rfl⟩ : y = x ∧ _ = ts := by simpa [Feed.next] using ht
        simp [firstEvent, laterEvent, hx]
    | free k n =>
      obtain ⟨rfl, rfl⟩ : Config.freeTurn k n = x ∧ _ = ts := by simpa [Feed.next] using ht
      simp [firstEvent, laterEvent, hx]

/-- A command word that is the next turn is the next event. -/
theorem nextEvent_command {s : State} {w : Word} {ts : Feed Turn}
    (h : nextTurn s.env.turns = some (.command w, ts)) :
    nextEvent s = some (.command w, { turns := ts, stream := s.env.stream }) := nextEvent_of_next h rfl

/-- A delivery that is the next turn, with the block pulling and a byte to come, is the next event. -/
theorem nextEvent_deliver {s : State} {b : Byte} {bs : Feed Byte} {ts : Feed Turn} (hp : s.st.pulls = true)
    (ht : nextTurn s.env.turns = some (.deliver, ts)) (hs : nextByte s.env.stream = some (b, bs)) :
    nextEvent s = some (.rx b, { turns := ts, stream := bs }) :=
  nextEvent_of_next ht (by simp [turnEvent, deliverable, hp, hs])

end Sys2Proof.Machine
end

