-- ==== Sys2Proof/Laws/PerInstr.lean ====
section
/-! SUPPORT. Laws/PerInstr.lean: statements made per instruction, one lemma per constructor. -/

namespace Sys2Proof.Laws.EncodingRow

open Sys2Proof

/-- R75: an operation's word selects its own row of the table. -/
def Statement (i : Instr) : Prop := (rowOf i).selects (encode i) = true

theorem sync : Statement .sync := by simp [Statement, rowOf, encode, Row.selects, c16]

theorem abort : Statement .abort := by simp [Statement, rowOf, encode, Row.selects, c16]

theorem declin (b : Byte) : Statement (.declin b) := by
  refine decide_eq_true ?_
  show c16 0x3 false b &&& 0xFF00 = 0x3000
  ext i hi
  interval_cases i <;>
    simp only [c16, ← BitVec.getLsbD_eq_getElem, BitVec.getLsbD_and, BitVec.getLsbD_append] <;> simp

theorem decang (b : Byte) (n : Bool) : Statement (.decang b n) := by
  refine decide_eq_true ?_
  show c16 0x4 n b &&& 0xFE00 = 0x4000
  ext i hi
  cases n <;> interval_cases i <;>
    simp only [c16, ← BitVec.getLsbD_eq_getElem, BitVec.getLsbD_and, BitVec.getLsbD_append] <;> simp

theorem frame : Statement .frame := by simp [Statement, rowOf, encode, Row.selects, c16]

end Sys2Proof.Laws.EncodingRow
end

