-- ==== Sys2Proof/Laws/Step.lean ====
section
/-! SUPPORT. Laws/Step.lean: everything an event can do, said once. `Effect e s t` lists the next states `t` an event `e` can
lead to from `s`, guards included; `onEvent_effect` says there is no other. A proof about every step is then one case
analysis on `Effect`, with the field lemmas of Laws/State.lean. -/

namespace Sys2Proof.Machine

open Sys2Proof

/-- The next state of an accepted `SYNC` (R84). -/
def syncStarted (s : State) : State :=
  { s with
    st := .hunt, lv := false,
    ghost := { s.ghost with huntStart := s.ghost.consumed, syncAccepts := s.ghost.syncAccepts + 1 },
    out := Outputs.quiet }

/-- The next state of an accepted `ABORT` (R90). -/
def aborted (s : State) : State := { dropFrame s with st := .unsynced, lv := false, out := Outputs.quiet }

/-- The next state of an accepted `FRAME` (R112). -/
def frameStarted (s : State) : State :=
  { goTo (if s.frame.js then .hdr else .skip) 0 s with st := .decoding, out := Outputs.quiet }

/-- The next state of a hunt step that shifts the window (R86). -/
def windowShifted (b : Byte) (s : State) : State := { rxByte s with last := b, lv := true }

/-- The next state of `LinkLost` in a non-faulted state (R134). -/
def linkLostTaken (s : State) : State :=
  { dropFrame s with
    st := .faulted, cause := .linkLost, lv := false, out := { Outputs.quiet with evFault := true } }

@[simp] theorem syncStarted_cfg (s : State) : (syncStarted s).cfg = s.cfg := rfl
@[simp] theorem syncStarted_st (s : State) : (syncStarted s).st = .hunt := rfl
@[simp] theorem syncStarted_last (s : State) : (syncStarted s).last = s.last := rfl
@[simp] theorem syncStarted_lv (s : State) : (syncStarted s).lv = false := rfl
@[simp] theorem syncStarted_cause (s : State) : (syncStarted s).cause = s.cause := rfl
@[simp] theorem syncStarted_frame (s : State) : (syncStarted s).frame = s.frame := rfl
@[simp] theorem syncStarted_ghost (s : State) : (syncStarted s).ghost = { s.ghost with huntStart := s.ghost.consumed, syncAccepts := s.ghost.syncAccepts + 1 } := rfl
@[simp] theorem syncStarted_out (s : State) : (syncStarted s).out = Outputs.quiet := rfl
@[simp] theorem syncStarted_env (s : State) : (syncStarted s).env = s.env := rfl
@[simp] theorem syncStarted_fresh (s : State) : (syncStarted s).fresh = s.fresh := rfl

@[simp] theorem aborted_cfg (s : State) : (aborted s).cfg = s.cfg := rfl
@[simp] theorem aborted_st (s : State) : (aborted s).st = .unsynced := rfl
@[simp] theorem aborted_last (s : State) : (aborted s).last = s.last := rfl
@[simp] theorem aborted_lv (s : State) : (aborted s).lv = false := rfl
@[simp] theorem aborted_cause (s : State) : (aborted s).cause = s.cause := rfl
@[simp] theorem aborted_frame (s : State) : (aborted s).frame = (dropFrame s).frame := rfl
@[simp] theorem aborted_ghost (s : State) : (aborted s).ghost = s.ghost := rfl
@[simp] theorem aborted_out (s : State) : (aborted s).out = Outputs.quiet := rfl
@[simp] theorem aborted_env (s : State) : (aborted s).env = s.env := rfl
@[simp] theorem aborted_fresh (s : State) : (aborted s).fresh = s.fresh := rfl

@[simp] theorem frameStarted_cfg (s : State) : (frameStarted s).cfg = s.cfg := rfl
@[simp] theorem frameStarted_st (s : State) : (frameStarted s).st = .decoding := rfl
@[simp] theorem frameStarted_last (s : State) : (frameStarted s).last = s.last := rfl
@[simp] theorem frameStarted_lv (s : State) : (frameStarted s).lv = s.lv := rfl
@[simp] theorem frameStarted_cause (s : State) : (frameStarted s).cause = s.cause := rfl
@[simp] theorem frameStarted_frame (s : State) : (frameStarted s).frame = { s.frame with ph := if s.frame.js then .hdr else .skip, cnt := 0, idx := 0 } := rfl
@[simp] theorem frameStarted_ghost (s : State) : (frameStarted s).ghost = s.ghost := rfl
@[simp] theorem frameStarted_out (s : State) : (frameStarted s).out = Outputs.quiet := rfl
@[simp] theorem frameStarted_env (s : State) : (frameStarted s).env = s.env := rfl
@[simp] theorem frameStarted_fresh (s : State) : (frameStarted s).fresh = s.fresh := rfl

@[simp] theorem windowShifted_cfg (b : Byte) (s : State) : (windowShifted b s).cfg = s.cfg := rfl
@[simp] theorem windowShifted_st (b : Byte) (s : State) : (windowShifted b s).st = s.st := rfl
@[simp] theorem windowShifted_last (b : Byte) (s : State) : (windowShifted b s).last = b := rfl
@[simp] theorem windowShifted_lv (b : Byte) (s : State) : (windowShifted b s).lv = true := rfl
@[simp] theorem windowShifted_cause (b : Byte) (s : State) : (windowShifted b s).cause = s.cause := rfl
@[simp] theorem windowShifted_frame (b : Byte) (s : State) : (windowShifted b s).frame = s.frame := rfl
@[simp] theorem windowShifted_ghost (b : Byte) (s : State) : (windowShifted b s).ghost = (rxByte s).ghost := rfl
@[simp] theorem windowShifted_out (b : Byte) (s : State) : (windowShifted b s).out = Outputs.quiet := rfl
@[simp] theorem windowShifted_env (b : Byte) (s : State) : (windowShifted b s).env = s.env := rfl
@[simp] theorem windowShifted_fresh (b : Byte) (s : State) : (windowShifted b s).fresh = s.fresh := rfl

@[simp] theorem linkLostTaken_cfg (s : State) : (linkLostTaken s).cfg = s.cfg := rfl
@[simp] theorem linkLostTaken_st (s : State) : (linkLostTaken s).st = .faulted := rfl
@[simp] theorem linkLostTaken_last (s : State) : (linkLostTaken s).last = s.last := rfl
@[simp] theorem linkLostTaken_lv (s : State) : (linkLostTaken s).lv = false := rfl
@[simp] theorem linkLostTaken_cause (s : State) : (linkLostTaken s).cause = .linkLost := rfl
@[simp] theorem linkLostTaken_frame (s : State) : (linkLostTaken s).frame = (dropFrame s).frame := rfl
@[simp] theorem linkLostTaken_ghost (s : State) : (linkLostTaken s).ghost = s.ghost := rfl
@[simp] theorem linkLostTaken_out (s : State) : (linkLostTaken s).out = { Outputs.quiet with evFault := true } := rfl
@[simp] theorem linkLostTaken_env (s : State) : (linkLostTaken s).env = s.env := rfl
@[simp] theorem linkLostTaken_fresh (s : State) : (linkLostTaken s).fresh = s.fresh := rfl

/-- Every next state an event can lead to. -/
inductive Effect : Event → State → State → Prop where
  | illegal {w : Word} {s : State} {r : Reject} (hd : decodeFor s.cfg.withFrameLayer w = .error r) :
      Effect (.command w) s (refuse s)
  | refused {w : Word} {s : State} {i : Instr} (hd : decodeFor s.cfg.withFrameLayer w = .ok i)
      (hr : performedIn i s.st = false) : Effect (.command w) s (refuse s)
  | sync {w : Word} {s : State} (hd : decodeFor s.cfg.withFrameLayer w = .ok .sync) (h : s.st = .unsynced) :
      Effect (.command w) s (syncStarted s)
  | abort {w : Word} {s : State} (hd : decodeFor s.cfg.withFrameLayer w = .ok .abort) (h : s.st ≠ .faulted) :
      Effect (.command w) s (aborted s)
  | declin {w : Word} {s : State} {b : Byte} (hd : decodeFor s.cfg.withFrameLayer w = .ok (.declin b)) :
      Effect (.command w) s (deliver (lin b) s)
  | decang {w : Word} {s : State} {b : Byte} {n : Bool}
      (hd : decodeFor s.cfg.withFrameLayer w = .ok (.decang b n)) :
      Effect (.command w) s (deliver (angle s.cfg.angleTable b n) s)
  | frame {w : Word} {s : State} (hd : decodeFor s.cfg.withFrameLayer w = .ok .frame) (h : s.st = .synced)
      (hf : s.cfg.withFrameLayer = true) (hl : s.cfg.layoutKnown = true) : Effect (.command w) s (frameStarted s)
  | pair {b : Byte} {s : State} (h : s.st = .hunt) (hv : s.lv = true) (hl : s.last = syncMarker)
      (hb : b = syncMarker) : Effect (.rx b) s (syncEvent (rxByte s))
  | shift {b : Byte} {s : State} (h : s.st = .hunt)
      (hn : ¬(s.lv = true ∧ s.last = syncMarker ∧ b = syncMarker)) : Effect (.rx b) s (windowShifted b s)
  | skip {b : Byte} {s : State} (h : s.st = .decoding) (hp : s.frame.ph = .skip) :
      Effect (.rx b) s (skipByte (rxByte s))
  | gather {b : Byte} {s : State} (h : s.st = .decoding)
      (hp : s.frame.ph = .hdr ∧ s.frame.cnt = 0 ∨ s.frame.ph = .rob ∧ s.frame.cnt.toNat < 4 ∨
        s.frame.ph = .bal ∧ s.frame.cnt = 0) : Effect (.rx b) s (gather b (rxByte s))
  | headerRobots {b : Byte} {s : State} (h : s.st = .decoding) (hp : s.frame.ph = .hdr) (hc : s.frame.cnt = 1)
      (hr : 0 < robotsToRead (storeHeader b (rxByte s))) :
      Effect (.rx b) s (goTo .rob 0 (storeHeader b (rxByte s)))
  | headerBalls {b : Byte} {s : State} (h : s.st = .decoding) (hp : s.frame.ph = .hdr) (hc : s.frame.cnt = 1)
      (hr : robotsToRead (storeHeader b (rxByte s)) = 0) (hb : 0 < (clamp b s.cfg.maxBalls).toNat) :
      Effect (.rx b) s (goTo .bal 0 (storeHeader b (rxByte s)))
  | headerEmpty {b : Byte} {s : State} (h : s.st = .decoding) (hp : s.frame.ph = .hdr) (hc : s.frame.cnt = 1)
      (hr : robotsToRead (storeHeader b (rxByte s)) = 0) (hb : (clamp b s.cfg.maxBalls).toNat = 0) :
      Effect (.rx b) s (finish (storeHeader b (rxByte s)))
  | robotNext {b : Byte} {s : State} (h : s.st = .decoding) (hp : s.frame.ph = .rob) (hc : s.frame.cnt = 4)
      (hi : s.frame.idx.toNat + 1 < s.frame.nr.toNat) :
      Effect (.rx b) s (goTo .rob (s.frame.idx + 1) (storeRobot (robotRecord b (rxByte s)) (rxByte s)))
  | robotBalls {b : Byte} {s : State} (h : s.st = .decoding) (hp : s.frame.ph = .rob) (hc : s.frame.cnt = 4)
      (hi : s.frame.nr.toNat ≤ s.frame.idx.toNat + 1) (hb : 0 < s.frame.nb.toNat) :
      Effect (.rx b) s (goTo .bal 0 (storeRobot (robotRecord b (rxByte s)) (rxByte s)))
  | robotDone {b : Byte} {s : State} (h : s.st = .decoding) (hp : s.frame.ph = .rob) (hc : s.frame.cnt = 4)
      (hi : s.frame.nr.toNat ≤ s.frame.idx.toNat + 1) (hb : s.frame.nb.toNat = 0) :
      Effect (.rx b) s (finish (storeRobot (robotRecord b (rxByte s)) (rxByte s)))
  | ballNext {b : Byte} {s : State} (h : s.st = .decoding) (hp : s.frame.ph = .bal) (hc : s.frame.cnt = 1)
      (hi : s.frame.idx.toNat + 1 < s.frame.nb.toNat) :
      Effect (.rx b) s (goTo .bal (s.frame.idx + 1) (storeBall (ballRecord b (rxByte s)) (rxByte s)))
  | ballDone {b : Byte} {s : State} (h : s.st = .decoding) (hp : s.frame.ph = .bal) (hc : s.frame.cnt = 1)
      (hi : s.frame.nb.toNat ≤ s.frame.idx.toNat + 1) :
      Effect (.rx b) s (finish (storeBall (ballRecord b (rxByte s)) (rxByte s)))
  | lost {s : State} (h : s.st ≠ .faulted) : Effect .linkLost s (linkLostTaken s)
  | lostAgain {s : State} (h : s.st = .faulted) : Effect .linkLost s (s.withOut Outputs.quiet)
  | reset {s : State} : Effect .reset s (takeReset s)

/-- Only an existing operation decodes: with `FRAME` decoded, the build has the frame layer. -/
theorem wellFormed_of_decodeFor {fl : Bool} {w : Word} {i : Instr} (h : decodeFor fl w = .ok i) :
    wellFormed fl i = true := by
  unfold decodeFor at h
  split at h
  · split at h
    · next hw => cases h; exact hw
    · cases h
  · cases h

/-- A command word that decodes has one of the listed effects. -/
theorem exec_effect {w : Word} {i : Instr} {s t : State} (hd : decodeFor s.cfg.withFrameLayer w = .ok i)
    (h : exec i s = .next t) : Effect (.command w) s t := by
  cases i with
  | sync =>
    rcases execSync_cases s with ⟨hs, he⟩ | ⟨hs, he⟩ <;> simp only [exec, he, Host.Outcome.next.injEq] at h <;> subst h
    · exact .sync hd hs
    · exact .refused hd (by simp [performedIn, hs])
  | abort =>
    rcases execAbort_cases s with ⟨hs, he⟩ | ⟨hs, he⟩ <;> simp only [exec, he, Host.Outcome.next.injEq] at h <;> subst h
    · exact .refused hd (by simp [performedIn, hs])
    · exact .abort hd hs
  | declin b => cases h; exact .declin hd
  | decang b n => cases h; exact .decang hd
  | frame =>
    have hf : s.cfg.withFrameLayer = true := wellFormed_of_decodeFor hd
    rcases execFrame_cases s with ⟨hs, _, hl, he⟩ | ⟨_, _, _, he⟩ | ⟨hs, he⟩ <;> simp only [exec, he] at h <;> cases h
    · exact .frame hd hs hf hl
    · exact .refused hd (by simp [performedIn]; exact fun hst => hs ⟨hst, hf⟩)

/-- A byte taken while a frame is decoded has one of the listed effects. -/
theorem decodeStep_effect {b : Byte} {s t : State} (hs : s.st = .decoding) (h : decodeStep b s = .next t) :
    Effect (.rx b) s t := by
  rcases decodeStep_cases b s with ⟨hp, he⟩ | ⟨hp, he⟩ | ⟨hp, hc, he⟩ | ⟨hp, hc, he⟩ | ⟨hp, hc, he⟩ | ⟨_, _, he⟩ <;>
    rw [he] at h <;> cases h
  · exact .skip hs hp
  · exact .gather hs hp
  · rcases headerByte_cases b (rxByte s) with ⟨hr, he⟩ | ⟨hr, he⟩ <;> rw [he]
    · exact .headerRobots hs hp hc hr
    · rcases afterRobots_cases (storeHeader b (rxByte s)) with ⟨hb, he⟩ | ⟨hb, he⟩ <;> rw [he]
      · exact .headerBalls hs hp hc hr hb
      · exact .headerEmpty hs hp hc hr hb
  · rcases robotByte_cases b (rxByte s) with ⟨hr, he⟩ | ⟨hr, he⟩ <;> rw [he]
    · exact .robotNext hs hp hc hr
    · rcases afterRobots_cases (storeRobot (robotRecord b (rxByte s)) (rxByte s)) with ⟨hb, he⟩ | ⟨hb, he⟩ <;> rw [he]
      · exact .robotBalls hs hp hc hr hb
      · exact .robotDone hs hp hc hr hb
  · rcases ballByte_cases b (rxByte s) with ⟨hr, he⟩ | ⟨hr, he⟩ <;> rw [he]
    · exact .ballNext hs hp hc hr
    · exact .ballDone hs hp hc hr

/-- Every event that answers a next state has one of the listed effects. -/
theorem onEvent_effect {e : Event} {s t : State} (h : onEvent e s = .next t) : Effect e s t := by
  cases e with
  | command w =>
    rcases onCommand_cases w s with ⟨i, hd, he⟩ | ⟨r, hd, he⟩ <;> simp only [onEvent, he] at h
    · exact exec_effect hd h
    · cases h; exact .illegal hd
  | rx b =>
    rcases onRx_cases b s with ⟨hs, he⟩ | ⟨hs, he⟩ | ⟨_, _, he⟩ <;> simp only [onEvent, he] at h
    · rcases huntStep_cases b s with ⟨hv, hl, hb, hh⟩ | ⟨hn, hh⟩ <;> rw [hh] at h <;> cases h
      · exact .pair hs hv hl hb
      · exact .shift hs hn
    · exact decodeStep_effect hs h
    · cases h
  | linkLost =>
    cases h
    by_cases hs : s.st = .faulted
    · rw [takeLinkLost_faulted hs]; exact .lostAgain hs
    · rw [takeLinkLost_entry hs]; exact .lost hs
  | reset => cases h; exact .reset

/-- Every step that answers a next state takes one enabled event and has one of its effects. -/
theorem step_effect {s t : State} (h : step s = .next t) :
    ∃ e v, nextEvent s = some (e, v) ∧ Effect e (s.withEnv v) t := by
  obtain ⟨e, v, hn, he⟩ := step_next h
  exact ⟨e, v, hn, onEvent_effect he⟩

/-- One more step of a run, from the next state. -/
theorem runs_succ {n : Nat} {s t : State} (h : step s = .next t) :
    Host.Core.run Sys2Proof.core (n + 1) s = Host.Core.run Sys2Proof.core n t := by
  have hs : Sys2Proof.core.step s = .next t := h
  simp only [Host.Core.run, hs]

end Sys2Proof.Machine
end

