-- ==== Sys2Proof/Tests/Slice0.lean ====
section
/-! SUPPORT. Tests/Slice0.lean: words decoded by hand from R75, one-step tests whose expected results are the spec's own
examples and vectors (95_test_vectors.md), and for every obligation with hypotheses a concrete state that meets them. -/

namespace Sys2Proof.Tests

open Sys2Proof Sys2Proof.Machine

/-! ## Small states -/

/-- The build of the test vectors, with the given turns and stream to come. -/
def vec (ts : List Turn) (bs : List Byte) : State := State.resetIn Config.vectors { turns := .ofList ts, stream := .ofList bs }

/-- A state of the given control state, `CAUSE` as R39 has it. -/
def at' (x : St) (s : State) : State := { s with st := x, cause := if x = .faulted then .linkLost else .none }

/-- A hunt with window `l`, `v`, started by one accepted `SYNC`, with `n` bytes taken. -/
def hunting (l : Byte) (v : Bool) (n : Nat) (s : State) : State :=
  { at' .hunt s with last := l, lv := v, ghost := { s.ghost with consumed := n, syncAccepts := 1 } }

/-- A frame decode in phase `p`, with `CNT`, `IDX`, `NR`, `NB` and the scratch buffer given. -/
def decoding (p : Phase) (cnt : BitVec 3) (idx nr nb : Byte) (scr : Vector Byte 5) (s : State) : State :=
  { at' .decoding s with frame := { s.frame with ph := p, cnt := cnt, idx := idx, nr := nr, nb := nb, scr := scr } }

/-- A build without the frame layer. -/
def bare (ts : List Turn) (bs : List Byte) : State :=
  State.resetIn { Config.vectors with withFrameLayer := false } { turns := .ofList ts, stream := .ofList bs }

/-- A build with `WITH_ROBOT_LIST = false` and no layout supplied. -/
def unknown (ts : List Turn) : State :=
  State.resetIn { Config.vectors with robotList := .absentUnknown } { turns := .ofList ts, stream := .ofList [] }

/-- One field of the next state, if there is one. -/
def after {α : Type} (f : State → α) : Host.Outcome State Fault Refusal → Option α
  | .next t    => some (f t)
  | .fault _   => none
  | .refused _ => none

/-! ## WellFormed (R76) -/

theorem test_wf_frame_needs_layer : wellFormed false .frame = false ∧ wellFormed true .frame = true := by decide
theorem test_wf_others :
    wellFormed false .sync = true ∧ wellFormed false .abort = true ∧ wellFormed false (.declin 255) = true ∧
    wellFormed false (.decang 255 true) = true := by decide
theorem test_decode_refuses_ill_formed : decodeFor false 0x8000 = .error .noFrameLayer := by decide

/-! ## Decode (R75, written bit by bit; V-E2 to V-E8) -/

theorem test_decode_sync : decodeTableWord 16 0b0001000000000000 = some .sync := by decide
theorem test_decode_abort : decodeTableWord 16 0b0010000000000000 = some .abort := by decide
theorem test_decode_declin : decodeTableWord 16 0b0011000011111111 = some (.declin 255) := by decide
theorem test_decode_decang : decodeTableWord 16 0b0100000100110010 = some (.decang 50 true) := by decide
theorem test_decode_frame : decodeTableWord 16 0b1000000000000000 = some .frame := by decide
theorem test_decode_illegal :
    decode 0x1001 = .error .bNotZero ∧ decode 0x2100 = .error .nNotZero ∧ decode 0x3100 = .error .nNotZero ∧
    decode 0x4200 = .error .zNotZero ∧ decode 0x0000 = .error .reservedOp ∧ decode 0x8001 = .error .bNotZero := by decide
theorem test_decode_reserved_ops :
    ∀ w ∈ [0x5000, 0x6000, 0x7000, 0x9000, 0xA000, 0xB000, 0xC000, 0xD000, 0xE000, 0xF000],
      decode (BitVec.ofNat 16 w) = .error .reservedOp := by decide

/-! ## One step of each command -/

/-- The example of R84: the window of an aborted hunt is emptied, `LAST` is left. -/
theorem test_sync :
    after (fun t => (t.st, t.lv, t.last)) (exec .sync { vec [] [] with lv := true, last := 0xFF })
      = some (.hunt, false, 0xFF) := by decide
/-- V-E9. -/
theorem test_sync_refused : after (fun t => (t.st, t.out.refused)) (exec .sync (at' .hunt (vec [] [])))
    = some (.hunt, true) := by decide
/-- V-S14. -/
theorem test_abort :
    after (fun t => (t.st, t.lv, t.frame.js, t.frame.cnt))
      (exec .abort { at' .synced (vec [] []) with lv := true, frame := { FrameLayer.reset Config.vectors with js := true } })
      = some (.unsynced, false, false, 0) := by decide
/-- V-E11. -/
theorem test_abort_refused : after (fun t => (t.st, t.out.refused)) (exec .abort (at' .faulted (vec [] [])))
    = some (.faulted, true) := by decide
/-- V-C6. -/
theorem test_declin : after (fun t => t.out.res) (exec (.declin 10) (vec [] [])) = some (some 0x40A00000) := by decide
/-- V-E12. -/
theorem test_declin_faulted :
    after (fun t => (t.st, t.out.res)) (step ((at' .faulted (vec [] [])).withFetchWord 16 0x30FF))
      = some (.faulted, some 0x42FF0000) := by decide
/-- V-C15. -/
theorem test_decang : after (fun t => t.out.res) (exec (.decang 50 true) (vec [] [])) = some (some 0xBF1E5105) := by decide
/-- V-C12. -/
theorem test_decang_negative_zero :
    after (fun t => t.out.res) (exec (.decang 0 true) (vec [] [])) = some (some 0x80000000) := by decide
/-- The example of R112. -/
theorem test_frame :
    after (fun t => (t.st, t.frame.ph, t.frame.cnt)) (exec .frame (at' .synced (vec [] []))) = some (.decoding, .skip, 0) := by
  decide
/-- V-E10. -/
theorem test_frame_refused : after (fun t => (t.st, t.out.refused)) (exec .frame (vec [] []))
    = some (.unsynced, true) := by decide

/-! ## One step of each other event -/

/-- The examples of R86. -/
theorem test_hunt_step :
    after (fun t => (t.st, t.out.evSync, t.last)) (onEvent (.rx 0xFF) (hunting 0xFF true 1 (vec [] [])))
      = some (.synced, true, 0xFF) ∧
    after (fun t => (t.st, t.out.evSync, t.last)) (onEvent (.rx 0xFE) (hunting 0xFF true 1 (vec [] [])))
      = some (.hunt, false, 0xFE) := by decide
/-- The example of R115: header `FF 01`. -/
theorem test_header :
    after (fun t => (t.frame.nr, t.frame.nb, t.frame.ph))
      (onEvent (.rx 1) (decoding .hdr 1 0 0 0 #v[0xFF, 0, 0, 0, 0] (vec [] []))) = some (10, 1, .rob) := by decide
/-- The example of R118: record `01 64 00 0A 14`. -/
theorem test_robot_record :
    after (fun t => t.frame.rob[0])
      (onEvent (.rx 0x14) (decoding .rob 4 0 2 1 #v[0x01, 0x64, 0x00, 0x0A, 0] (vec [] [])))
      = some { id := 1, heading := 0x3F9E5105, x := 0x40A00000, y := 0x41200000 } := by decide
/-- V-F6, the last byte: heading byte `0x85`, reserved byte `0xEE`. -/
theorem test_robot_record_signed :
    after (fun t => (t.st, t.frame.pub.rob))
      (onEvent (.rx 2) (decoding .rob 4 0 1 0 #v[0x07, 0x85, 0xEE, 0x03, 0] (vec [] [])))
      = some (.synced, [{ id := 7, heading := 0xBD7D4E6E, x := 0x3FC00000, y := 0x3F800000 }]) := by decide
/-- The example of R120: record `04 06`. -/
theorem test_ball_record :
    after (fun t => (t.st, t.frame.js, t.frame.pub.bal))
      (onEvent (.rx 6) (decoding .bal 1 0 0 1 #v[0x04, 0, 0, 0, 0] (vec [] [])))
      = some (.synced, false, [{ x := 0x40000000, y := 0x40400000 }]) := by decide
/-- V-X3. -/
theorem test_link_lost :
    after (fun t => (t.st, t.cause, t.frame.cnt, t.frame.js, t.out.evFault, t.ghost.pubCount))
      (onEvent .linkLost (decoding .rob 3 0 2 1 #v[1, 2, 3, 0, 0] (vec [] []))) = some (.faulted, .linkLost, 0, false, true, 0) := by
  decide
/-- V-X6. -/
theorem test_reset :
    after (fun t => (t.st, t.cause, t.lv, t.frame.js, t.frame.pubValid, t.ghost.consumed))
      (onEvent .reset { at' .faulted (vec [] []) with ghost := { Ghosts.reset with consumed := 40 } })
      = some (.unsynced, .none, false, false, false, 0) := by decide
/-- R43: with nothing to come the block is stuck. -/
theorem test_stuck : step (at' .hunt (vec [.deliver] [])) = .fault .stuck := rfl

/-! ## Witnesses: encoding and commands -/

theorem witness_WordsSelect :
    (rowOf (.declin 255)).selects 0x30FF = true ∧ (rowOf (.declin 0)).selects 0x30FF = true := by decide

/-- One word for each way R76 lists. -/
theorem witness_IllegalWords :
    decodeFor true 0x9000 = .error .reservedOp ∧ decodeFor true 0x1200 = .error .zNotZero ∧
    decodeFor true 0x8100 = .error .nNotZero ∧ decodeFor true 0x2001 = .error .bNotZero ∧
    decodeFor false 0x8000 = .error .noFrameLayer := by decide

theorem witness_CommandsArePerformed : (vec [] []).cfg.withFrameLayer = true ∧ (vec [] []).cfg.layoutKnown = true := by decide

theorem witness_RefusedCommand :
    decodeFor true 0x8001 = .error .bNotZero ∧ decodeFor true 0x8000 = .ok .frame ∧
    performedIn .frame (at' .faulted (vec [] [])).st = false ∧
    wellFormed (at' .synced (bare [] [])).cfg.withFrameLayer .frame = false := by decide

theorem witness_UnknownLayout :
    (at' .synced (unknown [])).st = .synced ∧ (at' .synced (unknown [])).cfg.withFrameLayer = true ∧
    (at' .synced (unknown [])).cfg.robotList = .absentUnknown := by decide

/-! ## Witnesses: FSYNC -/

theorem witness_SyncStarts : (vec [] []).st = .unsynced ∧ (at' .faulted (vec [] [])).st ≠ .unsynced := by decide

theorem witness_Abort :
    (at' .decoding (vec [] [])).st ≠ .faulted ∧ (vec [] []).cfg.withFrameLayer = true ∧
    (at' .hunt (bare [] [])).st ≠ .faulted ∧ (bare [] []).cfg.withFrameLayer = false ∧
    (at' .faulted (vec [] [])).st = .faulted := by decide

/-- Both branches, the second by each of its three causes. -/
theorem witness_HuntStep :
    (hunting 0xFF true 1 (vec [] [])).st = .hunt ∧
    ((hunting 0xFF true 1 (vec [] [])).lv = true ∧ (hunting 0xFF true 1 (vec [] [])).last = 0xFF ∧ (0xFF : Byte) = 0xFF) ∧
    ¬((hunting 0xFF false 0 (vec [] [])).lv = true) ∧ ¬((hunting 0xFE true 1 (vec [] [])).last = 0xFF) ∧
    ¬((0xFE : Byte) = 0xFF) := by decide

theorem witness_inv_hunting : StateInv (hunting 0xFF true 1 (vec [.deliver] [0xFF])) := by constructor <;> decide

theorem witness_HuntNeedsTwoBytes :
    ∃ t, step (hunting 0xFF true 1 (vec [.deliver] [0xFF])) = .next t ∧ t.out.evSync = true := ⟨_, rfl, rfl⟩

/-- Bytes with a codec command and a refused `SYNC` between them; and no byte at all. -/
theorem witness_feeds :
    Feeds [.deliver, .command 0x30FF, .deliver, .command 0x1000, .deliver, .deliver] 4 ∧ Feeds [] 0 := by
  refine ⟨⟨by decide, ?_⟩, ⟨by decide, by simp⟩⟩
  simp [encode, c16]

/-- V-S3, with commands between the bytes. -/
theorem witness_HuntEnds :
    firstPair [0x00, 0xFF, 0xFE, 0xFF, 0xFF] = some 4 ∧ ([0x00, 0xFF, 0xFE, 0xFF, 0xFF] : List Byte).length = 4 + 1 ∧
    (vec [] []).st = .unsynced := by decide

theorem witness_HuntEnds_feeds :
    Delivers (vec [] [0x00, 0xFF, 0xFE, 0xFF, 0xFF, 0x01]).env.stream [0x00, 0xFF, 0xFE, 0xFF, 0xFF] (.ofList [0x01]) ∧
    Presents (vec (issue .sync :: (deliveries 4 ++ [.deliver, .linkLost])) []).env.turns
      (issue .sync :: (deliveries 4 ++ [.deliver])) (.ofList [.linkLost]) :=
  ⟨Feed.starts_listed [0x00, 0xFF, 0xFE, 0xFF, 0xFF] [0x01] .ends,
   Feed.starts_listed (issue .sync :: (deliveries 4 ++ [.deliver])) [.linkLost] .ends⟩

/-- No byte at all, and a list of four without a pair. -/
theorem witness_HuntGoesOn :
    firstPair [] = none ∧ firstPair [0xFF, 0x12, 0x00, 0xFF] = none ∧ ([0xFF, 0x12, 0x00, 0xFF] : List Byte).length = 4 := by
  decide

/-- A stream of zeros without end, delivered without end: V-S15 as a state. -/
def endless : State :=
  State.resetIn Config.vectors
    { turns := { listed := [issue .sync], later := .again [.deliver] }, stream := { listed := [], later := .again [0] } }

theorem no_pair_in_zeros (n : Nat) : firstPair (List.replicate n 0) = none := by
  simp [firstPair, PairAt, List.getElem?_replicate, syncMarker]

theorem witness_HuntGoesOnForEver :
    endless.st = .unsynced ∧ Presents endless.env.turns [issue .sync] { listed := [], later := .again [.deliver] } ∧
    (∀ n, ∃ u, Presents { listed := [], later := .again [.deliver] } (deliveries n) u) ∧
    (∀ n, ∃ bs rest, bs.length = n ∧ Delivers endless.env.stream bs rest ∧ firstPair bs = none) :=
  ⟨rfl, ⟨_, rfl, rfl⟩, fun n => ⟨_, Feed.starts_again _ n⟩,
   fun n => ⟨List.replicate n 0, _, by simp, Feed.starts_again 0 n, no_pair_in_zeros n⟩⟩

/-- Free turns never run out: a block that does not pull takes a free command where the turn is a delivery. -/
theorem test_free_turns_never_stuck (k n : Nat) :
    nextEvent (State.resetIn Config.vectors { turns := { listed := [], later := .free k n }, stream := .ofList [] }) ≠ none := by
  simp only [nextEvent, State.resetIn, firstEvent, laterEvent]
  split <;> simp

theorem witness_ThirdMarker :
    (vec [] [0xFF, 0xFF, 0xFF, 60]).st = .unsynced ∧ (vec [] []).cfg.withFrameLayer = true ∧ (vec [] []).cfg.layoutKnown = true ∧ (vec [] []).cfg.withRobotList = true := by
  decide

theorem witness_SyncReport :
    ∃ t, step (hunting 0xFF true 1 (vec [.deliver] [0xFF])) = .next t ∧ t.out.evSync = true ∧ t.ghost.syncEvents = 0 + 1 :=
  ⟨_, rfl, rfl, rfl⟩

/-- Two windows with the same predicate; a next state, a fault and a refusal. -/
theorem witness_OnlyThePreviousMarkerBit :
    State.pm { hunting 0xFF false 0 (vec [] []) with last := 3, lv := true } = (hunting 0xFF false 0 (vec [] [])).pm ∧
    onEvent (.rx 0) (vec [] []) = .fault .rxNotEnabled ∧
    onEvent (.command 0x8000) (at' .synced (unknown [])) = .refused .robotListLayoutUnknown :=
  ⟨by decide, rfl, rfl⟩

/-! ## Witnesses: CODEC -/

theorem witness_LinearIncreases : (254 : Byte) < 255 ∧ (255 : Byte).toNat = (254 : Byte).toNat + 1 := by decide

theorem witness_AngularDecode : (0 : Byte) < 1 ∧ (254 : Byte) < 255 := by decide

theorem witness_CodecResults : lin 255 = 0x42FF0000 ∧ angle .amag 0 true = 0x80000000 := by decide

theorem witness_DefaultHeading :
    headingOf .signBit7 0xB2 0 = (50, true) ∧ headingOf .signBit7 0x7F 0xEE = (127, false) ∧
    Config.vectors.headingLayout = .signBit7 := by decide

theorem witness_OtherRounding :
    (29 : Byte).toNat ∈ [29, 58, 65, 77, 109, 116, 123, 130, 154, 161, 163, 218, 225, 232, 239, 246, 253] ∧
    (30 : Byte).toNat ∉ [29, 58, 65, 77, 109, 116, 123, 130, 154, 161, 163, 218, 225, 232, 239, 246, 253] := by decide

theorem witness_DecangDefaultTable : (vec [] []).cfg.angleTable = .amag := by decide

theorem witness_CodecIsStateless :
    (∃ b, Instr.declin 7 = .declin b) ∧ (∃ b n, Instr.decang 7 true = .decang b n) ∧
    (vec [] []).cfg = (at' .faulted (vec [] [])).cfg := ⟨⟨_, rfl⟩, ⟨_, _, rfl⟩, rfl⟩

/-! ## Witnesses: the frame layer -/

theorem witness_FrameStarts :
    (at' .synced (vec [] [])).st = .synced ∧ (vec [] []).cfg.withFrameLayer = true ∧ (vec [] []).cfg.layoutKnown = true ∧
    (vec [] []).st ≠ .synced := by decide

/-- The vector V-F7's profile is a build; one without balls is none (R14). -/
theorem test_profile_256 : ({ Config.vectors with maxBalls := 256, maxBallsPos := by decide } : Config).maxBalls = 256 := rfl

theorem witness_Skipped :
    (decoding .skip 0 0 0 0 #v[0, 0, 0, 0, 0] (vec [] [])).st = .decoding ∧
    (decoding .skip 1 0 0 0 #v[0, 0, 0, 0, 0] (vec [] [])).frame.ph = .skip := by decide

/-- The three kinds of unit, the robot record at its last gathered byte. -/
theorem witness_IncompleteUnits :
    (decoding .hdr 0 0 0 0 #v[0, 0, 0, 0, 0] (vec [] [])).frame.cnt = 0 ∧
    (decoding .rob 3 0 1 0 #v[1, 2, 3, 0, 0] (vec [] [])).frame.cnt < 4 ∧
    (decoding .bal 0 0 0 1 #v[0, 0, 0, 0, 0] (vec [] [])).frame.cnt = 0 := by decide

/-- Counts at and just above capacity, and the three phases that can follow. -/
theorem witness_HeaderCounts :
    after (fun t => (t.st, t.frame.ph, t.frame.nr, t.frame.nb))
      (onEvent (.rx 61) (decoding .hdr 1 0 0 0 #v[11, 0, 0, 0, 0] (vec [] []))) = some (.decoding, .rob, 10, 60) ∧
    after (fun t => (t.st, t.frame.ph, t.frame.nr, t.frame.nb))
      (onEvent (.rx 60) (decoding .hdr 1 0 0 0 #v[0, 0, 0, 0, 0] (vec [] []))) = some (.decoding, .bal, 0, 60) ∧
    after (fun t => (t.st, t.frame.ph, t.frame.nr, t.frame.nb))
      (onEvent (.rx 0) (decoding .hdr 1 0 0 0 #v[0, 0, 0, 0, 0] (vec [] []))) = some (.synced, .hdr, 0, 0) := by decide

/-- The last but one robot, the last with balls to come, and the last of all. -/
theorem witness_RobotRecord :
    after (fun t => (t.st, t.frame.ph, t.frame.idx))
      (onEvent (.rx 0) (decoding .rob 4 8 10 1 #v[0, 0, 0, 0, 0] (vec [] []))) = some (.decoding, .rob, 9) ∧
    after (fun t => (t.st, t.frame.ph, t.frame.idx))
      (onEvent (.rx 0) (decoding .rob 4 9 10 1 #v[0, 0, 0, 0, 0] (vec [] []))) = some (.decoding, .bal, 0) ∧
    after (fun t => (t.st, t.frame.ph, t.frame.idx))
      (onEvent (.rx 0) (decoding .rob 4 9 10 0 #v[0, 0, 0, 0, 0] (vec [] []))) = some (.synced, .rob, 9) := by decide

theorem witness_BallRecord :
    after (fun t => (t.st, t.frame.idx))
      (onEvent (.rx 0) (decoding .bal 1 58 0 60 #v[0, 0, 0, 0, 0] (vec [] []))) = some (.decoding, 59) ∧
    after (fun t => (t.st, t.frame.idx))
      (onEvent (.rx 0) (decoding .bal 1 59 0 60 #v[0, 0, 0, 0, 0] (vec [] []))) = some (.synced, 59) := by decide

/-- A step that publishes and one that does not. -/
theorem witness_SnapshotChanges :
    after (fun t => (t.out.evFrame, t.fresh)) (step (decoding .bal 1 0 0 1 #v[4, 0, 0, 0, 0] (vec [.deliver] [6])))
      = some (true, 0) ∧
    after (fun t => (t.out.evFrame, t.fresh)) (step (decoding .bal 0 0 0 1 #v[0, 0, 0, 0, 0] (vec [.deliver] [4])))
      = some (false, 0) := by decide

theorem witness_inv_robots : StateInv (decoding .rob 4 9 10 1 #v[1, 2, 3, 4, 0] (vec [.deliver] [5])) := by
  constructor <;> decide

theorem witness_ListWrites :
    ∃ t, step (decoding .rob 4 9 10 1 #v[1, 2, 3, 4, 0] (vec [.deliver] [5])) = .next t ∧ t.fresh = 0 := ⟨_, rfl, rfl⟩

/-- Both values of `JS`: a frame after a sync event, and a later frame with its marker pair. Bytes for the frames: three
before the last of the second, and none before the link is lost, from `witness_feeds_frame`. -/
theorem witness_feeds_frame : Feeds [.deliver, .command 0x30FF, .deliver, .deliver] 3 := by
  refine ⟨by decide, ?_⟩
  simp [encode, c16]

theorem witness_FrameDecode :
    ([1, 0, 7, 0x85, 0xEE, 3, 2] : List Byte).length = formLength Config.vectors true [1, 0, 7, 0x85, 0xEE, 3, 2] ∧
    ([0x12, 0x34, 0, 0] : List Byte).length = formLength Config.vectors false [0x12, 0x34, 0, 0] ∧
    BallsSized (at' .synced (vec [] [])) ∧ 3 + 1 = ([0x12, 0x34, 0, 0] : List Byte).length := by decide

/-- The turns of a frame that ends and of one that is lost at once, and its bytes. -/
theorem witness_FrameDecode_feeds :
    Presents (vec (issue .frame :: ([.deliver, .command 0x30FF, .deliver, .deliver] ++ [.deliver])) []).env.turns
      (issue .frame :: ([.deliver, .command 0x30FF, .deliver, .deliver] ++ [.deliver])) (.ofList []) ∧
    Presents (vec (issue .frame :: ([] ++ [.linkLost])) []).env.turns (issue .frame :: ([] ++ [.linkLost])) (.ofList []) ∧
    Delivers (vec [] [0x12, 0x34, 0, 0, 9]).env.stream [0x12, 0x34, 0, 0] (.ofList [9]) :=
  ⟨Feed.starts_listed [issue .frame, .deliver, .command 0x30FF, .deliver, .deliver, .deliver] [] .ends,
   Feed.starts_listed [issue .frame, .linkLost] [] .ends,
   Feed.starts_listed [0x12, 0x34, 0, 0] [9] .ends⟩

/-- The frame of S7. -/
def frameS7 : WireFrame :=
  { numRobots := 2, numBalls := 1, robots := [⟨1, 0x64, 0, 0x0A, 0x14⟩, ⟨2, 0xB2, 0, 0, 0xFF⟩], balls := [⟨4, 6⟩] }

theorem test_snapshot_S7 :
    frameS7.snapshot Config.vectors
      = { nr := 2, nb := 1,
          rob := [{ id := 1, heading := 0x3F9E5105, x := 0x40A00000, y := 0x41200000 },
                  { id := 2, heading := 0xBF1E5105, x := 0x00000000, y := 0x42FF0000 }],
          bal := [{ x := 0x40000000, y := 0x40400000 }] } := by decide

/-- The stream of P1. -/
theorem witness_JoinedMidFrame :
    firstPair (([0x14, 0x02, 0xFF, 0x00, 0x0A] : List Byte) ++ [0xFF, 0xFF]) = some (5 + 1) ∧
    frameS7.numRobots.toNat = frameS7.robots.length ∧ frameS7.robots.length ≤ 10 ∧
    frameS7.numBalls.toNat = frameS7.balls.length ∧ frameS7.balls.length ≤ Config.vectors.maxBalls ∧
    BallsSized (vec [] []) ∧ (vec [] []).cfg.withRobotList = true := by decide

theorem witness_JoinedMidFrame_feeds :
    Presents (vec (framex .unsynced 7 14) []).env.turns (framex .unsynced (5 + 2) frameS7.payload.length) (.ofList []) ∧
    Delivers (vec [] ([0x14, 0x02, 0xFF, 0x00, 0x0A] ++ frameS7.bytes)).env.stream
      ([0x14, 0x02, 0xFF, 0x00, 0x0A] ++ frameS7.bytes) (.ofList []) :=
  ⟨Feed.starts_listed (framex .unsynced 7 14) [] .ends,
   Feed.starts_listed ([0x14, 0x02, 0xFF, 0x00, 0x0A] ++ frameS7.bytes) [] .ends⟩

theorem witness_Abandoned : (decoding .rob 3 0 2 1 #v[1, 2, 3, 0, 0] (vec [] [])).st = .decoding := by decide

theorem witness_WithoutFrameLayer :
    (bare [issue .sync] []).cfg.withFrameLayer = false ∧ (bare [issue .sync] []).st ≠ .decoding ∧
    ∃ t, step (bare [issue .sync] []) = .next t := ⟨rfl, by decide, ⟨_, rfl⟩⟩

/-! ## Witnesses: faults, reset, whole-machine rules -/

theorem witness_LinkLost :
    (vec [] []).st ≠ .faulted ∧ (vec [] []).cfg.withFrameLayer = true ∧ (bare [] []).cfg.withFrameLayer = false ∧
    (at' .faulted (vec [] [])).st = .faulted := by decide

theorem witness_FaultedIsLeft :
    (at' .faulted (vec [] [])).st = .faulted ∧ Event.linkLost ≠ .reset ∧
    ∃ t, onEvent .linkLost (at' .faulted (vec [] [])) = .next t := ⟨rfl, by decide, ⟨_, rfl⟩⟩

theorem witness_OnlyLinkLostFaults :
    (vec [] []).st ≠ .faulted ∧ ∃ t, onEvent .linkLost (vec [] []) = .next t ∧ t.st = .faulted := ⟨by decide, ⟨_, rfl, rfl⟩⟩

theorem witness_EveryStepKeeps : ∃ t, step (hunting 0xFF true 1 (vec [.deliver] [0xFF])) = .next t := ⟨_, rfl⟩

theorem witness_Reachable : Reachable (vec [issue .sync] []) := .reset Config.vectors _

theorem witness_inv_reset : StateInv (vec [.deliver] []) := by constructor <;> decide

/-- Stuck with no turn to come, in a state that does not pull, and at the end of the stream. -/
theorem witness_OnlyStop :
    step (vec [.deliver] []) = .fault .stuck ∧ step (vec [] [1]) = .fault .stuck ∧ step (vec [.deliver] [1]) = .fault .stuck ∧
    step (at' .hunt (vec [.deliver] [])) = .fault .stuck := ⟨rfl, rfl, rfl, rfl⟩

theorem witness_StepRuns :
    nextTurn (vec [.command 0x4132] []).env.turns = some (.command 0x4132, .ofList []) ∧ decodeFor true 0x4132 = .ok (.decang 50 true) ∧
    decodeFor true (BitVec.ofNat 16 0x30FF) = .ok (.declin 255) ∧ 0x30FF < 2 ^ 16 := by decide

/-- A step that takes a byte, one that takes none, and `RESET`. -/
theorem witness_BytesInOrder :
    after (fun t => (t.env.stream, t.ghost.consumed)) (step (hunting 0 false 3 (vec [.deliver] [1, 2]))) = some (.ofList [2], 4) ∧
    after (fun t => (t.env.stream, t.ghost.consumed)) (step (hunting 0 false 3 (vec [.linkLost] [1, 2]))) = some (.ofList [1, 2], 3) ∧
    after (fun t => (t.env.stream, t.ghost.consumed, t.fresh)) (step (hunting 0 false 3 (vec [.reset] [1, 2])))
      = some (.ofList [1, 2], 0, 1) := by decide

/-- Each of the four changes of the two flags. -/
theorem witness_StatusFlags :
    after State.syncedFlag (onEvent (.rx 0xFF) (hunting 0xFF true 1 (vec [] []))) = some true ∧
    after State.syncedFlag (onEvent (.command 0x2000) (at' .synced (vec [] []))) = some false ∧
    after State.faultFlag (onEvent .linkLost (vec [] [])) = some true ∧
    after State.faultFlag (onEvent .reset (at' .faulted (vec [] []))) = some false := by decide

theorem witness_Transitions :
    after State.st (onEvent (.command 0x1000) (vec [] [])) = some .hunt ∧ (vec [] []).st ≠ .hunt := by decide

/-- One step for each output R40 lists. -/
theorem witness_Outputs :
    after (fun t => t.out.res) (onEvent (.command 0x3000) (vec [] [])) = some (some 0) ∧
    after (fun t => t.out.refused) (onEvent (.command 0x0000) (vec [] [])) = some true := by decide

theorem witness_Parameters : ∃ t, step (vec [.linkLost] []) = .next t := ⟨_, rfl⟩

/-- Two states after reset that differ in every value R38 leaves unspecified but the lists. -/
theorem witness_Unspecified :
    SameVisible (vec [issue .sync] [])
      { vec [issue .sync] [] with
        last := 0xFF, frame := { FrameLayer.reset Config.vectors with
          nr := 1, nb := 2, ph := .bal, cnt := 7, idx := 3, scr := #v[1, 2, 3, 4, 5], pub := ⟨1, 1, [], []⟩ } } := by
  constructor <;> first | rfl | decide | (intro h; cases h)

/-- From those two states: a step, a fault and, in a build of unknown layout, a refusal. -/
theorem witness_Unspecified_outcomes :
    (∃ t, step (vec [issue .sync] []) = .next t) ∧ step (vec [] []) = .fault .stuck ∧
    step (at' .synced (unknown [issue .frame])) = .refused .robotListLayoutUnknown := ⟨⟨_, rfl⟩, rfl, rfl⟩

theorem witness_ResetDraws : (at' .faulted (vec [] [])).cfg.withFrameLayer = true := by decide

theorem witness_Resync :
    (decoding .rob 3 0 2 1 #v[1, 2, 3, 0, 0] (vec resync [])).st ≠ .faulted ∧
    Presents (decoding .rob 3 0 2 1 #v[1, 2, 3, 0, 0] (vec resync [])).env.turns resync (.ofList []) :=
  ⟨by decide, Feed.starts_listed resync [] .ends⟩

theorem witness_Cycle : (at' .hunt (vec [] [])).st ≠ .faulted ∧ (vec [] []).st ≠ .faulted := by decide

end Sys2Proof.Tests
end

section
/-! A step and the command it takes (R19, R76 to R78): the settling of O45. -/

namespace Sys2Proof.Machine

open Sys2Proof

/-- R77: a word that decodes to an operation of the build has that operation's meaning. -/
theorem onCommand_of_decodeFor {w : Word} {i : Instr} {s : State} (hd : decodeFor s.cfg.withFrameLayer w = .ok i) :
    onCommand w s = exec i s := by simp [onCommand, hd]

/-- R19: when the next turn is a command, the step is the effect of that command at the state with the turn taken. -/
theorem step_command {s : State} {w : Word} {ts : Feed Turn} (ht : nextTurn s.env.turns = some (.command w, ts)) :
    step s = onCommand w (s.withEnv { s.env with turns := ts }) := step_of_nextEvent (nextEvent_command ht)

/-- A presented word is the next turn, and the turns there were come after it. -/
theorem nextTurn_present (w : Word) (s : State) :
    nextTurn (present w s).env.turns = some (.command w, s.env.turns) := Feed.next_push _ _

/-- Taking the turn that `present` put there gives back the state itself: the step is the word's effect at `s`. -/
theorem step_present (w : Word) (s : State) : step (present w s) = onCommand w s := step_command (nextTurn_present w s)

/-- Log 9: a word that fits its 16 bits is presented as it is. -/
theorem withFetchWord_of_lt {w : Nat} (hw : w < 2 ^ 16) (s : State) :
    s.withFetchWord 16 w = present (BitVec.ofNat 16 w) s := by rw [State.withFetchWord, Nat.mod_eq_of_lt hw]

/-- Settles O45: the next turn's command is the step's event (`step_command`), and a placed word is that next turn
(`step_present`); either way the decoded word has its operation's meaning. -/
theorem stepRunsTheDecodedCommand : Obligations.StepRunsTheDecodedCommand := by
  refine ⟨fun s w i ts ht hd => ?_, fun s w i hd hw => ?_⟩
  · calc step s = onCommand w (s.withEnv { s.env with turns := ts }) := step_command ht
      _ = exec i (s.withEnv { s.env with turns := ts }) := onCommand_of_decodeFor hd
  · calc step (s.withFetchWord 16 w) = step (present (BitVec.ofNat 16 w) s) := by rw [withFetchWord_of_lt hw]
      _ = onCommand (BitVec.ofNat 16 w) s := step_present _ s
      _ = exec i s := onCommand_of_decodeFor hd

end Sys2Proof.Machine
end

section
/-! The invariants of R39, kept by every step: the settling of O43. Three parts of the state have their own invariants: the
control registers with the ghosts, the stores with the snapshot, and the registers of the frame being decoded. Each part is
kept by every `Effect`, and `stateInv_of_parts` puts the parts together. -/

namespace Sys2Proof.Machine

open Sys2Proof

/-! ### The control registers and the ghosts -/

/-- R29, R134: `LinkLost` and `RESET` write `CAUSE` with the `ST` it belongs to; no other step enters or leaves `FAULTED`,
which is where `CAUSE` would have to change. -/
theorem Effect.causeMatchesState {e : Event} {s t : State} (he : Effect e s t) (h : CauseMatchesState s) :
    CauseMatchesState t := by
  cases he with
  | lost | reset => rfl
  | illegal | refused | declin | decang | lostAgain | shift | skip | gather | headerRobots | headerBalls | robotNext |
      robotBalls | ballNext => exact h
  | _ => simp_all [CauseMatchesState]

/-- R84, R86: an accepted `SYNC` is counted when its hunt starts, and so pays for the one sync event that can end it. -/
theorem Effect.syncEventsAccepted {e : Event} {s t : State} (he : Effect e s t) (h : SyncEventsAccepted s) :
    SyncEventsAccepted t := by
  have hle : s.ghost.syncEvents ≤ s.ghost.syncAccepts := by simp only [SyncEventsAccepted] at h; omega
  cases he with
  | sync => simpa [SyncEventsAccepted] using hle
  | pair hs => simpa [SyncEventsAccepted, hs] using h
  | abort | lost | frame | headerEmpty | robotDone | ballDone => simpa [SyncEventsAccepted] using hle
  | reset => simp [SyncEventsAccepted, Ghosts.reset]
  | _ => exact h

/-- R84, R86: a hunt starts with `LV = 0` at the present count, and the byte that sets `LV` is counted. -/
theorem Effect.huntCounted {e : Event} {s t : State} (he : Effect e s t) (h : HuntCounted s) : HuntCounted t := by
  cases he with
  | sync => simp [HuntCounted]
  | shift hs =>
    have hle : s.ghost.huntStart ≤ s.ghost.consumed := le_trans (Nat.le_add_right _ _) (h hs)
    simpa [HuntCounted] using fun _ => hle
  | illegal | refused | declin | decang | lostAgain => exact h
  | _ => simp_all [HuntCounted]

/-! ### The stores and the snapshot -/

/-- R115, R116: both counts of the frame are within their capacities. -/
def CountsBounded (c : Config) (f : FrameLayer) : Prop := f.nr.toNat ≤ maxRobots ∧ f.nb.toNat ≤ c.maxBalls

theorem countsBounded_storeHeader (b : Byte) (s : State) : CountsBounded s.cfg (storeHeader b s).frame := by
  simp [CountsBounded]

/-- R122: a publish of bounded counts from stores of full size is a bounded snapshot. -/
theorem snapshotBounded_finish {s : State} (hc : CountsBounded s.cfg s.frame) (hb : BallsSized s) :
    SnapshotBounded (finish s) := by
  obtain ⟨hnr, hnb⟩ := hc
  refine fun _ => ⟨hnr, hnb, ?_, ?_⟩
  · cases h : s.cfg.withRobotList <;> simp [snapshotOf, h, hnr]
  · simpa [snapshotOf, hb] using hnb

/-- R151: after `RESET` there is no valid snapshot; without the frame layer it is untouched. -/
theorem snapshotBounded_takeReset {s : State} (h : SnapshotBounded s) : SnapshotBounded (takeReset s) := by
  cases hl : s.cfg.withFrameLayer with
  | true => simp [SnapshotBounded, hl, FrameLayer.unspecified]
  | false => simpa [SnapshotBounded, hl] using h

/-- R53, R151: `RESET` frees the elements of `BAL` and keeps its size. -/
theorem ballsSized_takeReset {s : State} (h : BallsSized s) : BallsSized (takeReset s) := by
  cases hl : s.cfg.withFrameLayer with
  | true => simp [BallsSized, hl, FrameLayer.unspecified]
  | false => simpa [BallsSized, hl] using h

theorem ballsSized_storeBall (v : Vector2D) {s : State} (h : BallsSized s) : BallsSized (storeBall v s) := by
  simpa [BallsSized] using h

/-- R53: no step changes the size of `BAL`. -/
theorem Effect.ballsSized {e : Event} {s t : State} (he : Effect e s t) (h : BallsSized s) : BallsSized t := by
  cases he with
  | ballNext | ballDone => exact ballsSized_storeBall _ h
  | reset => exact ballsSized_takeReset h
  | _ => exact h

/-! ### The frame being decoded -/

/-- R39: `CNT` and `IDX` in each phase of a decode, and the counts once they are stored. -/
def PhaseInv (c : Config) (f : FrameLayer) : Prop :=
  match f.ph with
  | .skip => f.cnt.toNat ≤ 1
  | .hdr  => f.cnt.toNat ≤ 1
  | .rob  => CountsBounded c f ∧ f.idx.toNat < f.nr.toNat ∧ f.cnt.toNat ≤ 4 ∧ c.withRobotList = true
  | .bal  => CountsBounded c f ∧ f.idx.toNat < f.nb.toNat ∧ f.cnt.toNat ≤ 1

/-- What holds while a frame is decoded: the phase's own invariant, in a build that has the frame layer and its layout. -/
structure DecodeInv (c : Config) (f : FrameLayer) : Prop where
  layer  : c.withFrameLayer = true
  layout : c.layoutKnown = true
  phase  : PhaseInv c f

section
variable {c : Config} {f : FrameLayer}

theorem phaseInv_rob (hp : f.ph = .rob) : PhaseInv c f ↔
    CountsBounded c f ∧ f.idx.toNat < f.nr.toNat ∧ f.cnt.toNat ≤ 4 ∧ c.withRobotList = true := by
  simp only [PhaseInv, hp]

theorem phaseInv_bal (hp : f.ph = .bal) : PhaseInv c f ↔
    CountsBounded c f ∧ f.idx.toNat < f.nb.toNat ∧ f.cnt.toNat ≤ 1 := by
  simp only [PhaseInv, hp]

theorem PhaseInv.countsBounded (h : PhaseInv c f) (hp : f.ph = .rob ∨ f.ph = .bal) : CountsBounded c f := by
  rcases hp with hp | hp
  · exact ((phaseInv_rob hp).mp h).1
  · exact ((phaseInv_bal hp).mp h).1

theorem PhaseInv.idx_lt_nr (h : PhaseInv c f) (hp : f.ph = .rob) : f.idx.toNat < f.nr.toNat :=
  have ⟨_, hi, _⟩ := (phaseInv_rob hp).mp h
  hi

theorem PhaseInv.idx_lt_nb (h : PhaseInv c f) (hp : f.ph = .bal) : f.idx.toNat < f.nb.toNat :=
  have ⟨_, hi, _⟩ := (phaseInv_bal hp).mp h
  hi

theorem PhaseInv.withRobotList (h : PhaseInv c f) (hp : f.ph = .rob) : c.withRobotList = true :=
  have ⟨_, _, _, hl⟩ := (phaseInv_rob hp).mp h
  hl

theorem PhaseInv.cnt_le (h : PhaseInv c f) : f.cnt.toNat ≤ if f.ph = .rob then 4 else 1 := by
  cases hp : f.ph with
  | skip | hdr => simpa [PhaseInv, hp] using h
  | rob => obtain ⟨-, -, hcnt, -⟩ := (phaseInv_rob hp).mp h; exact hcnt
  | bal => obtain ⟨-, -, hcnt⟩ := (phaseInv_bal hp).mp h; exact hcnt

end

/-- A new robot record starts with no byte gathered. -/
theorem phaseInv_goTo_rob {i : Byte} {s : State} (hc : CountsBounded s.cfg s.frame)
    (hi : i.toNat < s.frame.nr.toNat) (hl : s.cfg.withRobotList = true) : PhaseInv s.cfg (goTo .rob i s).frame :=
  (phaseInv_rob rfl).mpr ⟨hc, hi, Nat.zero_le 4, hl⟩

/-- A new ball record starts with no byte gathered. -/
theorem phaseInv_goTo_bal {i : Byte} {s : State} (hc : CountsBounded s.cfg s.frame)
    (hi : i.toNat < s.frame.nb.toNat) : PhaseInv s.cfg (goTo .bal i s).frame :=
  (phaseInv_bal rfl).mpr ⟨hc, hi, Nat.zero_le 1⟩

/-- R112: a decode starts at the header or at the marker pair, with no byte gathered. -/
theorem phaseInv_frameStarted (s : State) : PhaseInv s.cfg (frameStarted s).frame := by
  cases h : s.frame.js <;> simp [PhaseInv, h]

/-- R113: whatever `CNT` was, it is 0 or 1 after a skipped byte. -/
theorem phaseInv_skipByte {s : State} (hp : s.frame.ph = .skip) : PhaseInv s.cfg (skipByte s).frame := by
  by_cases h : s.frame.cnt = 0
  · simp [PhaseInv, hp, h]
  · simp only [PhaseInv, skipByte_frame, if_neg h]; decide

/-- R114, R117, R119: a byte is gathered only while the unit lacks more than one, so `CNT` stays within it. -/
theorem phaseInv_gather {b : Byte} {s : State} (h : PhaseInv s.cfg s.frame)
    (hp : s.frame.ph = .hdr ∧ s.frame.cnt = 0 ∨ s.frame.ph = .rob ∧ s.frame.cnt.toNat < 4 ∨
      s.frame.ph = .bal ∧ s.frame.cnt = 0) : PhaseInv s.cfg (gather b s).frame := by
  rcases hp with ⟨hp, hc⟩ | ⟨hp, hc⟩ | ⟨hp, hc⟩
  · simp [PhaseInv, hp, hc]
  · obtain ⟨hb, hi, -, hl⟩ := (phaseInv_rob hp).mp h
    have hcnt : (s.frame.cnt + 1).toNat ≤ 4 := by bv_omega
    exact (phaseInv_rob (f := (gather b s).frame) hp).mpr ⟨hb, hi, hcnt, hl⟩
  · obtain ⟨hb, hi, -⟩ := (phaseInv_bal hp).mp h
    exact (phaseInv_bal (f := (gather b s).frame) hp).mpr ⟨hb, hi, by simp [hc]⟩

/-- R118, R120: the next index is the successor of `IDX` when it is below a count: a count fits its byte. -/
theorem toNat_add_one_lt {i n : Byte} (h : i.toNat + 1 < n.toNat) : (i + 1).toNat < n.toNat := by bv_omega

/-- R115: robot records are read only in a build that has the robot list, and then `NR` of them. -/
theorem robotsToRead_pos {s : State} (h : 0 < robotsToRead s) :
    s.cfg.withRobotList = true ∧ 0 < s.frame.nr.toNat := by
  unfold robotsToRead at h
  split at h
  · next hl => exact ⟨hl, h⟩
  · exact absurd h (Nat.lt_irrefl 0)

/-- Every step of a decode keeps its invariant, and `FRAME` establishes it. -/
theorem Effect.decodeInv {e : Event} {s t : State} (he : Effect e s t) (h : s.st = .decoding → DecodeInv s.cfg s.frame) :
    t.st = .decoding → DecodeInv t.cfg t.frame := by
  cases he with
  | illegal | refused | declin | decang | lostAgain | shift => exact h
  | sync | abort | pair | headerEmpty | robotDone | ballDone | lost | reset => exact nofun
  | frame _ _ hf hl => exact fun _ => ⟨hf, hl, phaseInv_frameStarted s⟩
  | skip hs hp => exact fun _ => ⟨(h hs).layer, (h hs).layout, phaseInv_skipByte hp⟩
  | gather hs hp => exact fun _ => ⟨(h hs).layer, (h hs).layout, phaseInv_gather (h hs).phase hp⟩
  | headerRobots hs _ _ hr =>
    obtain ⟨hl, hn⟩ := robotsToRead_pos hr
    exact fun _ => ⟨(h hs).layer, (h hs).layout, phaseInv_goTo_rob (countsBounded_storeHeader _ _) hn hl⟩
  | headerBalls hs _ _ _ hb =>
    exact fun _ => ⟨(h hs).layer, (h hs).layout, phaseInv_goTo_bal (countsBounded_storeHeader _ _) hb⟩
  | robotNext hs hp _ hi =>
    obtain ⟨hc, -, -, hl⟩ := (phaseInv_rob hp).mp (h hs).phase
    exact fun _ => ⟨(h hs).layer, (h hs).layout, phaseInv_goTo_rob hc (toNat_add_one_lt hi) hl⟩
  | robotBalls hs hp _ _ hb =>
    have hc := (h hs).phase.countsBounded (.inl hp)
    exact fun _ => ⟨(h hs).layer, (h hs).layout, phaseInv_goTo_bal hc hb⟩
  | ballNext hs hp _ hi =>
    have hc := (h hs).phase.countsBounded (.inr hp)
    exact fun _ => ⟨(h hs).layer, (h hs).layout, phaseInv_goTo_bal hc (toNat_add_one_lt hi)⟩

/-- R122, R124: only a publish and `RESET` change the snapshot, and a publish is made of bounded counts. -/
theorem Effect.snapshotBounded {e : Event} {s t : State} (he : Effect e s t) (hd : s.st = .decoding → DecodeInv s.cfg s.frame)
    (hb : BallsSized s) (h : SnapshotBounded s) : SnapshotBounded t := by
  cases he with
  | headerEmpty => exact snapshotBounded_finish (countsBounded_storeHeader _ _) hb
  | robotDone hs hp =>
    have hc := (hd hs).phase.countsBounded (.inl hp)
    exact snapshotBounded_finish hc hb
  | ballDone hs hp =>
    have hc := (hd hs).phase.countsBounded (.inr hp)
    exact snapshotBounded_finish hc (ballsSized_storeBall _ hb)
  | reset => exact snapshotBounded_takeReset h
  | _ => exact h

/-! ### The whole invariant -/

/-- The invariants of R39 about a decode say no less than `DecodeInv`. -/
theorem StateInv.decodeInv {s : State} (h : StateInv s) (hs : s.st = .decoding) : DecodeInv s.cfg s.frame := by
  obtain ⟨hf, hl, hlist⟩ := h.allowed hs
  obtain ⟨hrob, hbal⟩ := h.index hs
  have hc := h.counts hs
  have hu := h.unit hs
  refine ⟨hf, hl, ?_⟩
  cases hp : s.frame.ph with
  | skip | hdr => simpa [PhaseInv, hp] using hu
  | rob => exact (phaseInv_rob hp).mpr ⟨hc (.inl hp), hrob hp, by simpa [hp] using hu, hlist hp⟩
  | bal => exact (phaseInv_bal hp).mpr ⟨hc (.inr hp), hbal hp, by simpa [hp] using hu⟩

/-- The parts of the invariant, put together. -/
theorem stateInv_of_parts {s : State} (hcause : CauseMatchesState s) (hsyncs : SyncEventsAccepted s)
    (hhunt : HuntCounted s) (hsnap : SnapshotBounded s) (hballs : BallsSized s)
    (hd : s.st = .decoding → DecodeInv s.cfg s.frame) : StateInv s where
  cause := hcause
  counts hs hp := (hd hs).phase.countsBounded hp
  index hs := ⟨(hd hs).phase.idx_lt_nr, (hd hs).phase.idx_lt_nb⟩
  unit hs := (hd hs).phase.cnt_le
  snapshot := hsnap
  syncs := hsyncs
  hunt := hhunt
  balls := hballs
  allowed hs := ⟨(hd hs).layer, (hd hs).layout, (hd hs).phase.withRobotList⟩

/-- R39: whatever an event does, it keeps the invariants. -/
theorem Effect.stateInv {e : Event} {s t : State} (he : Effect e s t) (h : StateInv s) : StateInv t :=
  stateInv_of_parts (he.causeMatchesState h.cause) (he.syncEventsAccepted h.syncs) (he.huntCounted h.hunt)
    (he.snapshotBounded h.decodeInv h.balls h.snapshot) (he.ballsSized h.balls) (he.decodeInv h.decodeInv)

/-- R22: the invariants are about the block, not about its environment. -/
theorem StateInv.withEnv {s : State} (h : StateInv s) (v : Env) : StateInv (s.withEnv v) :=
  ⟨h.cause, h.counts, h.index, h.unit, h.snapshot, h.syncs, h.hunt, h.balls, h.allowed⟩

theorem stateInv_step {s t : State} (h : StateInv s) (hst : step s = .next t) : StateInv t := by
  obtain ⟨e, v, -, he⟩ := step_effect hst
  exact he.stateInv (h.withEnv v)

/-- R38: right after reset the block hunts for nothing, decodes nothing and has published nothing. -/
theorem stateInv_resetIn (c : Config) (e : Env) : StateInv (State.resetIn c e) :=
  stateInv_of_parts rfl (Nat.le_refl 0) nofun nofun List.length_replicate nofun

theorem Reachable.stateInv {s : State} (hr : Reachable s) : StateInv s := by
  induction hr with
  | reset c e => exact stateInv_resetIn c e
  | step _ hst ih => exact stateInv_step ih hst

/-- Settles O43: each part of the invariant is kept by every effect an event can have, and reset establishes it. -/
theorem everyStepKeepsTheInvariants : Obligations.EveryStepKeepsTheInvariants :=
  ⟨fun _ _ h hst => stateInv_step h hst, fun _ hr => hr.stateInv⟩

end Sys2Proof.Machine
end

section
/-! Decoding and encoding undo each other (R72 to R76): what a statement that names a command by its encoding needs. -/

namespace Sys2Proof

/-- R72: a word with `Z = 0` is assembled from the values of its other fields. -/
theorem c16_eq_of_fields {w : Word} {op : BitVec 4} {n : Bool} {b : Byte} (ho : opField w = op) (hz : ¬zField w ≠ 0)
    (hn : nField w = n) (hb : bField w = b) : c16 op n b = w := by
  subst ho hn hb
  exact c16_fields w (not_not.mp hz)

/-- R76: an operation without operands is accepted only with `N` and `B` zero. -/
theorem noOperands_eq_ok {w : Word} {i j : Instr} (h : noOperands w i = .ok j) :
    nField w = false ∧ bField w = 0 ∧ i = j := by
  unfold noOperands at h
  split at h
  · cases h
  · next hn =>
    split at h
    · cases h
    · next hb => cases h; exact ⟨Bool.eq_false_of_not_eq_true hn, not_not.mp hb, rfl⟩

/-- A word that decodes to an operation without operands is its opcode alone. -/
theorem c16_of_noOperands {w : Word} {op : BitVec 4} {i j : Instr} (ho : opField w = op) (hz : ¬zField w ≠ 0)
    (h : noOperands w i = .ok j) : i = j ∧ c16 op false 0 = w := by
  obtain ⟨hn, hb, hij⟩ := noOperands_eq_ok h
  exact ⟨hij, c16_eq_of_fields ho hz hn hb⟩

/-- R75: a word that decodes is the encoding of its operation. -/
theorem encode_of_decode {w : Word} {i : Instr} (h : decode w = .ok i) : encode i = w := by
  unfold decode at h
  split_ifs at h with h1 z h2 z h3 z n h4 z h8 z
  · obtain ⟨rfl, hw⟩ := c16_of_noOperands h1 z h; exact hw
  · obtain ⟨rfl, hw⟩ := c16_of_noOperands h2 z h; exact hw
  · cases h; exact c16_eq_of_fields h3 z (Bool.eq_false_of_not_eq_true n) rfl
  · cases h; exact c16_eq_of_fields h4 z rfl rfl
  · obtain ⟨rfl, hw⟩ := c16_of_noOperands h8 z h; exact hw

/-- R75, R76: so it is in every build. -/
theorem encode_of_decodeFor {fl : Bool} {w : Word} {i : Instr} (h : decodeFor fl w = .ok i) : encode i = w := by
  unfold decodeFor at h
  split at h
  · next j hj =>
    split at h
    · cases h; exact encode_of_decode hj
    · cases h
  · cases h

/-- R75: an encoded operation decodes to itself. -/
@[simp] theorem decode_encode (i : Instr) : decode (encode i) = .ok i := by
  cases i <;> simp [decode, encode, noOperands]

/-- R75, R76: an encoded operation decodes to itself in a build that has it. -/
theorem decodeFor_encode {fl : Bool} {i : Instr} (h : wellFormed fl i = true) : decodeFor fl (encode i) = .ok i := by
  simp [decodeFor, h]

/-- R75: two operations have one encoding only if they are the same. -/
theorem encode_inj {i j : Instr} : encode i = encode j ↔ i = j := by
  refine ⟨fun h => ?_, congrArg encode⟩
  have hd : decode (encode i) = decode (encode j) := congrArg decode h
  simpa using hd

/-- R76: an illegal word encodes no operation of the build. -/
theorem ne_encode_of_illegal {fl : Bool} {w : Word} {r : Reject} {i : Instr} (hd : decodeFor fl w = .error r)
    (hi : wellFormed fl i = true) : w ≠ encode i := by
  rintro rfl
  cases hd.symm.trans (decodeFor_encode hi)

end Sys2Proof
end

section
/-! The level outputs follow the control state (R28 to R30): the settling of O48. -/

namespace Sys2Proof.Machine

open Sys2Proof

/-- R123: an event leaves the control state or makes one of the listed transitions. -/
theorem Effect.transition {e : Event} {s t : State} (he : Effect e s t) : t.st = s.st ∨ Transition s.st e t.st := by
  cases he with
  | sync hd hs => rw [← encode_of_decodeFor hd, hs]; exact .inr .sync
  | abort hd hs => rw [← encode_of_decodeFor hd]; exact .inr (.abort hs)
  | frame hd hs => rw [← encode_of_decodeFor hd, hs]; exact .inr .frame
  | pair hs _ _ hb => rw [hb, hs]; exact .inr .pair
  | headerEmpty hs | robotDone hs | ballDone hs => rw [hs]; exact .inr (.done _)
  | lost => exact .inr .lost
  | reset => exact .inr .reset
  | _ => exact .inl rfl

/-- R40, R86: `ev_sync` is the output of exactly the step from `HUNT` to `SYNCED`. -/
theorem Effect.evSync_iff {e : Event} {s t : State} (he : Effect e s t) :
    t.out.evSync = true ↔ s.st = .hunt ∧ t.st = .synced := by
  cases he with
  | pair hs => simp [hs]
  | _ => simp_all [Outputs.quiet]

/-- R28: `synced`, from the control state alone. -/
theorem St.isSynced_iff (x : St) : x.isSynced = true ↔ x = .synced ∨ x = .decoding := by
  cases x <;> decide

/-- R28: `fault`, from the control state alone. -/
theorem St.isFaulted_iff (x : St) : x.isFaulted = true ↔ x = .faulted := by
  cases x <;> decide

/-- R23: the codes of `ST`. -/
theorem St.code_facts (x : St) :
    (x = .unsynced ↔ x.code = 0) ∧ (x = .hunt ↔ x.code = 1) ∧ (x = .synced ↔ x.code = 2) ∧
    (x = .decoding ↔ x.code = 3) ∧ (x = .faulted ↔ x.code = 4) := by
  cases x <;> decide

/-- R29, R131: the codes of `CAUSE`. -/
theorem Cause.code_facts (x : Cause) :
    (x = .none ↔ x.code = 0) ∧ (x = .linkLost ↔ x.code = 1) ∧ (x = .oversizeCount ↔ x.code = 2) ∧
    (x = .malformedRecord ↔ x.code = 3) := by
  cases x <;> decide

/-- R29, R30: under the invariant the output `cause` is 1 in `FAULTED` and 0 elsewhere. -/
theorem causeOut_eq {s : State} (h : CauseMatchesState s) : s.causeOut = if s.st = .faulted then 1 else 0 := by
  rw [State.causeOut, h]
  split <;> rfl

section
variable {x y : St} {e : Event}

/-- R28: `synced` becomes 1 only by the sync event. -/
theorem Transition.synced_rises (h : Transition x e y) (hx : x.isSynced = false) (hy : y.isSynced = true) :
    x = .hunt ∧ y = .synced ∧ e = .rx syncMarker := by
  cases h with
  | pair => exact ⟨rfl, rfl, rfl⟩
  | frame | done => cases hx
  | sync | abort | lost | reset => cases hy

/-- R28: `synced` becomes 0 only by `ABORT`, `LinkLost` and reset. -/
theorem Transition.synced_falls (h : Transition x e y) (hx : x.isSynced = true) (hy : y.isSynced = false) :
    e = .command (encode .abort) ∨ e = .linkLost ∨ e = .reset := by
  cases h with
  | abort => exact .inl rfl
  | lost => exact .inr (.inl rfl)
  | reset => exact .inr (.inr rfl)
  | sync => cases hx
  | pair | frame | done => cases hy

/-- R28: `fault` becomes 1 only by `LinkLost`. -/
theorem Transition.fault_rises (h : Transition x e y) (hy : y.isFaulted = true) : e = .linkLost := by
  cases h with
  | lost => rfl
  | _ => cases hy

/-- R28: `fault` becomes 0 only by reset. -/
theorem Transition.fault_falls (h : Transition x e y) (hx : x.isFaulted = true) (hy : y.isFaulted = false) :
    e = .reset := by
  cases h with
  | reset => rfl
  | abort hn => exact absurd ((St.isFaulted_iff x).mp hx) hn
  | lost => cases hy
  | _ => cases hx

end

/-- R28: a status condition that changes shows that the control state made a transition. -/
theorem Effect.transition_of_ne {β : Type} {e : Event} {s t : State} (he : Effect e s t) (f : St → β)
    (hf : f s.st ≠ f t.st) : Transition s.st e t.st :=
  he.transition.resolve_left fun hst => hf (congrArg f hst.symm)

/-- R28: every change of a status condition in a step. -/
theorem Effect.status_changes {e : Event} {s t : State} (he : Effect e s t) :
    (s.syncedFlag = false → t.syncedFlag = true → s.st = .hunt ∧ e = .rx syncMarker ∧ t.out.evSync = true) ∧
    (s.syncedFlag = true → t.syncedFlag = false → e = .command (encode .abort) ∨ e = .linkLost ∨ e = .reset) ∧
    (s.faultFlag = false → t.faultFlag = true → e = .linkLost) ∧
    (s.faultFlag = true → t.faultFlag = false → e = .reset) := by
  unfold State.syncedFlag State.faultFlag
  refine ⟨fun hs ht => ?_, fun hs ht => ?_, fun hs ht => ?_, fun hs ht => ?_⟩
  · obtain ⟨hhunt, hsync, hb⟩ := (he.transition_of_ne St.isSynced (by simp [hs, ht])).synced_rises hs ht
    exact ⟨hhunt, hb, he.evSync_iff.mpr ⟨hhunt, hsync⟩⟩
  · exact (he.transition_of_ne St.isSynced (by simp [hs, ht])).synced_falls hs ht
  · exact (he.transition_of_ne St.isFaulted (by simp [hs, ht])).fault_rises ht
  · exact (he.transition_of_ne St.isFaulted (by simp [hs, ht])).fault_falls hs ht

/-- Settles O48: the flags and codes are functions of `ST` and `CAUSE`, and the flags change only with a transition of the
control state (`Effect.status_changes`). -/
theorem statusFlagsFollowTheControlState : Obligations.StatusFlagsFollowTheControlState := by
  refine ⟨fun s => ⟨s.st.isSynced_iff, s.st.isFaulted_iff⟩, fun s t e h => (onEvent_effect h).status_changes,
    fun s => ?_⟩
  obtain ⟨hun, hhunt, hsync, hdec, hfault⟩ := s.st.code_facts
  obtain ⟨hnone, hlost, hover, hmal⟩ := s.cause.code_facts
  exact ⟨hun, hhunt, hsync, hdec, hfault, hnone, hlost, hover, hmal, fun h => causeOut_eq h.cause⟩

end Sys2Proof.Machine
end

section
/-! The outputs of a step (R40): the settling of O50. -/

namespace Sys2Proof.Machine

open Sys2Proof

/-- R40, R122: `ev_frame` is the output of exactly the step from `DECODING` to `SYNCED`. -/
theorem Effect.evFrame_iff {e : Event} {s t : State} (he : Effect e s t) :
    t.out.evFrame = true ↔ s.st = .decoding ∧ t.st = .synced := by
  cases he with
  | headerEmpty hs | robotDone hs | ballDone hs => simp [hs]
  | _ => simp_all [Outputs.quiet]

/-- R40, R134: `ev_fault` is the output of exactly the step that enters `FAULTED`. -/
theorem Effect.evFault_iff {e : Event} {s t : State} (he : Effect e s t) :
    t.out.evFault = true ↔ s.st ≠ .faulted ∧ t.st = .faulted := by
  cases he with
  | lost hs => simp [hs]
  | _ => simp_all [Outputs.quiet]

/-- R40, R96: a result comes with exactly the codec commands. They are legal in every build and performed in every state,
so a refused word is neither of them. -/
theorem Effect.res_iff {e : Event} {s t : State} (he : Effect e s t) :
    t.out.res ≠ none ↔ ∃ b n, e = .command (encode (.declin b)) ∨ e = .command (encode (.decang b n)) := by
  cases he with
  | illegal hd =>
    have hlin (b : Byte) := ne_encode_of_illegal (i := .declin b) hd rfl
    have hang (b : Byte) (n : Bool) := ne_encode_of_illegal (i := .decang b n) hd rfl
    simp [Outputs.quiet, hlin, hang]
  | @refused _ _ i hd hr =>
    have hlin (b : Byte) : i ≠ .declin b := by rintro rfl; cases hr
    have hang (b : Byte) (n : Bool) : i ≠ .decang b n := by rintro rfl; cases hr
    simp [Outputs.quiet, ← encode_of_decodeFor hd, encode_inj, hlin, hang]
  | sync hd | abort hd | frame hd | declin hd | decang hd =>
    simp [Outputs.quiet, ← encode_of_decodeFor hd, encode_inj]
  | _ => simp [Outputs.quiet]

/-- R40, R78: a refused step is a command's, and only its outputs are new. -/
theorem Effect.eq_withOut_of_refused {e : Event} {s t : State} (he : Effect e s t) (h : t.out.refused = true) :
    ∃ w, e = .command w ∧ t = s.withOut t.out := by
  cases he with
  | illegal | refused => exact ⟨_, rfl, rfl⟩
  | _ => cases h

/-- Settles O50: each output's own equivalence, over every effect of the event. -/
theorem outputsReportTheStep : Obligations.OutputsReportTheStep := by
  intro s t e h
  have he := onEvent_effect h
  exact ⟨he.evSync_iff, he.evFrame_iff, he.evFault_iff, he.res_iff, he.eq_withOut_of_refused⟩

end Sys2Proof.Machine
end

section
/-! Bytes are taken one at a time, in stream order (R44, R45, R48): the settling of O46. -/

namespace Sys2Proof.Machine

open Sys2Proof

/-- R22, R48: the effect of an event leaves the environment's inputs as the event left them. -/
theorem Effect.env_eq {e : Event} {s t : State} (he : Effect e s t) : t.env = s.env := by
  cases he <;> rfl

/-- R45: a byte taken is counted, whichever step it causes. -/
theorem Effect.consumed_of_rx {b : Byte} {s t : State} (he : Effect (.rx b) s t) :
    t.ghost.consumed = s.ghost.consumed + 1 := by
  cases he <;> rfl

/-- R45, R151: an event that brings no byte leaves `CONSUMED`, or is `RESET` and clears it. -/
theorem Effect.consumed_of_ne_rx {e : Event} {s t : State} (he : Effect e s t) (hne : ∀ b, e ≠ .rx b) :
    t.ghost.consumed = s.ghost.consumed ∨ t.fresh = s.fresh + 1 ∧ t.ghost.consumed = 0 := by
  cases e with
  | rx b => exact absurd rfl (hne b)
  | command w => cases he <;> exact .inl rfl
  | linkLost => cases he <;> exact .inl rfl
  | reset => cases he; exact .inr ⟨rfl, rfl⟩

/-- Settles O46: the step's event takes the next byte of a pulling block or leaves the stream (`nextEvent_stream`), and its
effect counts exactly the byte. -/
theorem bytesAreTakenInStreamOrder : Obligations.BytesAreTakenInStreamOrder := by
  intro s t h
  obtain ⟨e, v, hn, he⟩ := step_effect h
  have henv : t.env.stream = v.stream := congrArg Env.stream he.env_eq
  rcases nextEvent_stream hn with ⟨b, rfl, hpull, hb⟩ | ⟨hne, hv⟩
  · exact .inr ⟨b, henv ▸ hb, hpull, he.consumed_of_rx⟩
  · exact .inl ⟨henv.trans hv, he.consumed_of_ne_rx hne⟩

end Sys2Proof.Machine
end

section
/-! The working lists are written only in their phase and below their count (R53, R54): the settling of O32. -/

namespace Sys2Proof.Machine

open Sys2Proof

/-- R118: but for `RESET`, `ROB` is left as it is, or the robot phase writes the one record at `IDX`. -/
theorem Effect.rob_cases {e : Event} {s t : State} (he : Effect e s t) (hf : t.fresh = s.fresh) :
    t.frame.rob = s.frame.rob ∨
    s.st = .decoding ∧ s.frame.ph = .rob ∧ ∃ r, t.frame.rob = s.frame.rob.setIfInBounds s.frame.idx.toNat r := by
  cases he with
  | robotNext hs hp | robotBalls hs hp | robotDone hs hp => exact .inr ⟨hs, hp, _, rfl⟩
  | reset => exact absurd hf (Nat.succ_ne_self _)
  | _ => exact .inl rfl

/-- R120: but for `RESET`, `BAL` is left as it is, or the ball phase writes the one record at `IDX`. -/
theorem Effect.bal_cases {e : Event} {s t : State} (he : Effect e s t) (hf : t.fresh = s.fresh) :
    t.frame.bal = s.frame.bal ∨
    s.st = .decoding ∧ s.frame.ph = .bal ∧ ∃ v, t.frame.bal = s.frame.bal.set s.frame.idx.toNat v := by
  cases he with
  | ballNext hs hp | ballDone hs hp => exact .inr ⟨hs, hp, _, rfl⟩
  | reset => exact absurd hf (Nat.succ_ne_self _)
  | _ => exact .inl rfl

/-- Settles O32: a list changes at `IDX` alone and in its phase alone, where the invariant has `IDX` below the count. -/
theorem listWritesStayBelowTheCounts : Obligations.ListWritesStayBelowTheCounts := by
  intro s t hinv h hf
  obtain ⟨e, v, -, he⟩ := step_effect h
  refine ⟨fun i hi => ?_, fun i hi => ?_⟩
  · rcases he.rob_cases hf with hsame | ⟨hs, hp, r, hset⟩
    · exact congrArg (·[i]?) hsame
    · have hidx : s.frame.idx.toNat < s.frame.nr.toNat := (hinv.decodeInv hs).phase.idx_lt_nr hp
      have hne : s.frame.idx.toNat ≠ i := fun heq => hi ⟨hs, hp, heq ▸ hidx⟩
      rw [hset]
      exact Vector.getElem?_setIfInBounds_ne hne
  · rcases he.bal_cases hf with hsame | ⟨hs, hp, v, hset⟩
    · exact congrArg (·[i]?) hsame
    · have hidx : s.frame.idx.toNat < s.frame.nb.toNat := (hinv.decodeInv hs).phase.idx_lt_nb hp
      have hne : s.frame.idx.toNat ≠ i := fun heq => hi ⟨hs, hp, heq ▸ hidx⟩
      rw [hset]
      exact List.getElem?_set_ne hne

end Sys2Proof.Machine
end

section
/-! The hunt over bytes without a marker pair (R42, R85, R86, R89): the settling of O56. A hunt looks at the bytes of its
window and at those to come; while no two neighbours among them are both the marker, every byte only shifts the window. -/

namespace Sys2Proof.Machine

open Sys2Proof

/-! ### Marker pairs and the window -/

/-- R87: two neighbouring bytes that are no marker pair. -/
def NotPair (x y : Byte) : Prop := ¬(x = syncMarker ∧ y = syncMarker)

/-- R94: there is no first pair exactly when no two neighbours are a pair. -/
theorem firstPair_eq_none_iff (bs : List Byte) : firstPair bs = none ↔ bs.IsChain NotPair := by
  simp only [firstPair, List.find?_eq_none, List.mem_range, decide_eq_true_eq, List.isChain_iff_getElem]
  constructor
  · intro h k hk hpair
    obtain ⟨hx, hy⟩ := hpair
    exact h (k + 1) hk
      ⟨Nat.le_add_left 1 k, List.getElem?_eq_some_iff.mpr ⟨_, hx⟩, List.getElem?_eq_some_iff.mpr ⟨_, hy⟩⟩
  · rintro h k hk ⟨hpos, hx, hy⟩
    obtain ⟨j, rfl⟩ := Nat.exists_eq_add_of_le' hpos
    obtain ⟨_, hx⟩ := List.getElem?_eq_some_iff.mp hx
    obtain ⟨_, hy⟩ := List.getElem?_eq_some_iff.mp hy
    exact h j hk ⟨hx, hy⟩

/-- R24, R25, R85: the bytes of the current hunt that can still be part of a pair: the last one, if there is one. -/
def State.window (s : State) : List Byte := if s.lv then [s.last] else []

@[simp] theorem window_withEnv (s : State) (v : Env) : (s.withEnv v).window = s.window := rfl

@[simp] theorem window_syncStarted (s : State) : (syncStarted s).window = [] := rfl

@[simp] theorem window_windowShifted (b : Byte) (s : State) : (windowShifted b s).window = [b] := rfl

/-- R86: a byte that makes no pair with the window only shifts it. -/
theorem huntStep_of_notPair {b : Byte} {s : State} {bs : List Byte} (h : (s.window ++ b :: bs).IsChain NotPair) :
    huntStep b s = windowShifted b s := by
  rcases huntStep_cases b s with ⟨hv, hl, hb, -⟩ | ⟨-, hshift⟩
  · have hpair : NotPair s.last b := by
      rw [State.window, if_pos hv] at h
      exact (List.isChain_cons_cons.mp h).1
    exact absurd ⟨hl, hb⟩ hpair
  · exact hshift

/-! ### The steps of a hunt -/

/-- R84: `SYNC` presented next starts a hunt. -/
theorem step_sync {s : State} {ts : Feed Turn} (hs : s.st = .unsynced)
    (ht : nextTurn s.env.turns = some (issue .sync, ts)) :
    step s = .next (syncStarted (s.withEnv { s.env with turns := ts })) := by
  calc step s = onCommand (encode .sync) (s.withEnv { s.env with turns := ts }) := step_command ht
    _ = execSync (s.withEnv { s.env with turns := ts }) := onCommand_of_decodeFor (decodeFor_encode rfl)
    _ = .next (syncStarted (s.withEnv { s.env with turns := ts })) := if_pos hs

/-- R36, R86: a byte delivered next during a hunt is a hunt step. -/
theorem step_deliver_of_hunt {s : State} {b : Byte} {bs : Feed Byte} {ts : Feed Turn} (hs : s.st = .hunt)
    (ht : nextTurn s.env.turns = some (.deliver, ts)) (hb : nextByte s.env.stream = some (b, bs)) :
    step s = .next (huntStep b (s.withEnv { turns := ts, stream := bs })) := by
  have hpull : s.st.pulls = true := by rw [hs]; rfl
  rw [step_of_nextEvent (nextEvent_deliver hpull ht hb)]
  simp [onEvent, onRx, hs]

/-- R89: bytes delivered to a hunt that sees no pair in them are all taken, and the hunt goes on without a report. -/
theorem runs_hunt_of_notPair {s : State} {bs : List Byte} {rest : Feed Byte} {ts : Feed Turn} (hs : s.st = .hunt)
    (hquiet : s.out.evSync = false) (hpair : (s.window ++ bs).IsChain NotPair) (hd : Delivers s.env.stream bs rest)
    (hp : Presents s.env.turns (deliveries bs.length) ts) :
    ∃ t, runs bs.length s = .next t ∧ t.st = .hunt ∧ t.out.evSync = false ∧
      t.ghost.consumed = s.ghost.consumed + bs.length ∧ t.ghost.syncEvents = s.ghost.syncEvents := by
  induction bs generalizing s with
  | nil => exact ⟨s, rfl, hs, hquiet, rfl, rfl⟩
  | cons b bs ih =>
    obtain ⟨g, hb, hd⟩ := hd
    obtain ⟨us, hu, hp⟩ := hp
    have hstep : step s = .next (windowShifted b (s.withEnv { turns := us, stream := g })) := by
      rw [step_deliver_of_hunt hs hu hb, huntStep_of_notPair (by simpa using hpair)]
    have htail : (b :: bs).IsChain NotPair := hpair.right_of_append
    obtain ⟨t, ht, hst, hev, hcons, hsyncs⟩ :=
      ih (s := windowShifted b (s.withEnv { turns := us, stream := g })) hs rfl (by simpa using htail) hd hp
    refine ⟨t, (runs_succ hstep).trans ht, hst, hev, ?_, hsyncs⟩
    simpa [Nat.add_assoc, Nat.add_comm 1] using hcons

/-- Settles O56: `SYNC` starts the hunt with an empty window, and the first `n` bytes of the stream hold no pair. -/
theorem huntGoesOnForEver : Obligations.HuntGoesOnForEver := by
  rintro s _ hs ⟨ts, ht, rfl⟩ hturns hbytes n
  obtain ⟨bs, rest, rfl, hd, hpair⟩ := hbytes n
  obtain ⟨u, hp⟩ := hturns bs.length
  obtain ⟨t, hrun, ht'⟩ := runs_hunt_of_notPair (s := syncStarted (s.withEnv { s.env with turns := ts })) rfl rfl
    (by simpa using (firstPair_eq_none_iff bs).mp hpair) hd hp
  exact ⟨t, (runs_succ (step_sync hs ht)).trans hrun, ht'⟩

end Sys2Proof.Machine
end

section
/-! The rows of the encoding table (R75): a word selects an operation's row exactly when it decodes to that operation with
the operands the word's bits give. The settling of O2. -/

namespace Sys2Proof

/-- R74: the operation with the operands that stand in a word: `b = w[7:0]` and `n = w[8]`. -/
def Instr.withOperandsOf (w : Word) (i : Instr) : Instr :=
  match i with
  | .sync       => .sync
  | .abort      => .abort
  | .declin _   => .declin (bField w)
  | .decang _ _ => .decang (bField w) (nField w)
  | .frame      => .frame

/-- R75: "A word `w` selects the row with `(w and mask) = match`". -/
@[simp] theorem Row.selects_iff (r : Row) (w : Word) : r.selects w = true ↔ w &&& r.mask = r.bits := decide_eq_true_iff

/-- R75: a row does not depend on the operands. -/
@[simp] theorem rowOf_withOperandsOf (w : Word) (i : Instr) : rowOf (i.withOperandsOf w) = rowOf i := by
  cases i <;> rfl

/-- R75: an operation's word selects its own row. -/
theorem selects_encode (i : Instr) : (rowOf i).selects (encode i) = true := by
  cases i with
  | sync => exact Laws.EncodingRow.sync
  | abort => exact Laws.EncodingRow.abort
  | declin b => exact Laws.EncodingRow.declin b
  | decang b n => exact Laws.EncodingRow.decang b n
  | frame => exact Laws.EncodingRow.frame

/-- R74: an operation's own word holds its operands. -/
@[simp] theorem withOperandsOf_encode (i : Instr) : i.withOperandsOf (encode i) = i := by
  cases i <;> simp [Instr.withOperandsOf, encode]

/-- R74, R75: the bits the mask of a row leaves open are the operands' bits. -/
theorem encode_withOperandsOf_getLsbD {w : Word} {i : Instr} {k : Nat} (hk : k < 16)
    (hopen : (rowOf i).mask.getLsbD k = false) : (encode (i.withOperandsOf w)).getLsbD k = w.getLsbD k := by
  have full : ∀ k < 16, (0xFFFF : Word).getLsbD k = true := by decide
  have low8 : ∀ k < 16, (0xFF00 : Word).getLsbD k = false → k < 8 := by decide
  have low9 : ∀ k < 16, (0xFE00 : Word).getLsbD k = false → k < 9 := by decide
  cases i with
  | sync | abort | frame => nomatch (full k hk).symm.trans hopen
  | declin b =>
    have h8 : k < 8 := low8 k hk hopen
    simp [Instr.withOperandsOf, encode, c16_getLsbD, bField, h8]
  | decang b n =>
    have h9 : k < 9 := low9 k hk hopen
    by_cases h8 : k < 8
    · simp [Instr.withOperandsOf, encode, c16_getLsbD, bField, h8]
    · obtain rfl : k = 8 := by omega
      exact nField_c16 0x4 (nField w) (bField w)

/-- Two words are the same when they agree under a mask and at every bit the mask leaves open. -/
theorem eq_of_and_mask_eq {x y m : Word} (hmask : x &&& m = y &&& m)
    (hopen : ∀ k < 16, m.getLsbD k = false → x.getLsbD k = y.getLsbD k) : x = y := by
  refine BitVec.eq_of_getLsbD_eq fun k hk => ?_
  cases hm : m.getLsbD k with
  | false => exact hopen k hk hm
  | true => simpa [hm] using congrArg (BitVec.getLsbD · k) hmask

/-- R75: a word that selects an operation's row is the encoding of that operation with the word's own operands. -/
theorem encode_withOperandsOf_of_selects {w : Word} {i : Instr} (h : (rowOf i).selects w = true) :
    encode (i.withOperandsOf w) = w := by
  have hself : (rowOf i).selects (encode (i.withOperandsOf w)) = true := by
    rw [← rowOf_withOperandsOf w i]
    exact selects_encode (i.withOperandsOf w)
  rw [Row.selects_iff] at h hself
  exact eq_of_and_mask_eq (hself.trans h.symm) fun _ => encode_withOperandsOf_getLsbD

/-- R72 to R76: a word decodes to an operation exactly when it is its encoding. -/
theorem decode_eq_ok_iff {w : Word} {i : Instr} : decode w = .ok i ↔ encode i = w := by
  refine ⟨encode_of_decode, ?_⟩
  rintro rfl
  exact decode_encode i

/-- R74, R75: a word decodes to an operation exactly when it selects its row and holds its operands. -/
theorem decode_eq_ok_iff_selects {w : Word} {i : Instr} :
    decode w = .ok i ↔ (rowOf i).selects w = true ∧ i.withOperandsOf w = i := by
  rw [decode_eq_ok_iff]
  constructor
  · rintro rfl
    exact ⟨selects_encode i, withOperandsOf_encode i⟩
  · rintro ⟨hrow, hops⟩
    rw [← encode_withOperandsOf_of_selects hrow, hops]

/-- R75: the rows are disjoint, because the word decodes to one operation. -/
theorem rowOf_eq_of_selects {w : Word} {i j : Instr} (hi : (rowOf i).selects w = true)
    (hj : (rowOf j).selects w = true) : rowOf i = rowOf j := by
  have hij : i.withOperandsOf w = j.withOperandsOf w :=
    encode_inj.mp ((encode_withOperandsOf_of_selects hi).trans (encode_withOperandsOf_of_selects hj).symm)
  rw [← rowOf_withOperandsOf w i, hij, rowOf_withOperandsOf]

/-- Settles O2: each row is `decode_eq_ok_iff_selects` at its operation, and the rows are disjoint. -/
theorem wordsSelectTheRowsOfTheTable : Obligations.WordsSelectTheRowsOfTheTable := by
  refine ⟨fun w => ⟨?_, ?_, fun b => ?_, fun b n => ?_, ?_⟩, fun w i j => rowOf_eq_of_selects, by decide, by decide⟩ <;>
    rw [decode_eq_ok_iff_selects, Row.selects_iff]
  · simp [rowOf, Instr.withOperandsOf]
  · simp [rowOf, Instr.withOperandsOf]
  · simp [rowOf, Instr.withOperandsOf, bField, eq_comm]
  · simp [rowOf, Instr.withOperandsOf, bField, nField, eq_comm, and_comm]
  · simp [rowOf, Instr.withOperandsOf]

end Sys2Proof
end

section
/-! The illegal words (R76): the legal ones are the encodings of the build's operations. The settling of O3. -/

namespace Sys2Proof

/-- R76: the conditions the rule lists, of which an illegal word meets at least one. -/
def IllegalFields (fl : Bool) (w : Word) : Prop :=
  opField w ∉ [1, 2, 3, 4, 8] ∨ zField w ≠ 0 ∨ (nField w = true ∧ opField w ∈ [1, 2, 3, 8]) ∨
    (bField w ≠ 0 ∧ opField w ∈ [1, 2, 8]) ∨ (fl = false ∧ opField w = 8)

/-- R76: the word of an operation the build has meets none of the conditions. -/
theorem not_illegalFields_encode {fl : Bool} {i : Instr} (hi : wellFormed fl i = true) :
    ¬IllegalFields fl (encode i) := by
  cases i with
  | sync | abort | declin | decang => simp [IllegalFields, encode]
  | frame =>
    have hfl : fl = true := hi
    simp [IllegalFields, encode, hfl]

/-- R72, R75, R76: a word that meets none of the conditions is the word of an operation the build has. -/
theorem exists_encode_of_not_illegalFields {fl : Bool} {w : Word} (h : ¬IllegalFields fl w) :
    ∃ i, wellFormed fl i = true ∧ encode i = w := by
  simp only [IllegalFields, not_or, not_not] at h
  obtain ⟨hop, hz, hn, hb, hfl⟩ := h
  have hz : ¬zField w ≠ 0 := not_not.mpr hz
  have noN (hmem : opField w ∈ [1, 2, 3, 8]) : nField w = false := Bool.eq_false_of_not_eq_true fun h => hn ⟨h, hmem⟩
  have noB (hmem : opField w ∈ [1, 2, 8]) : bField w = 0 := not_not.mp fun h => hb ⟨h, hmem⟩
  simp only [List.mem_cons, List.not_mem_nil, or_false] at hop
  rcases hop with ho | ho | ho | ho | ho
  · exact ⟨.sync, rfl, c16_eq_of_fields ho hz (noN (by simp [ho])) (noB (by simp [ho]))⟩
  · exact ⟨.abort, rfl, c16_eq_of_fields ho hz (noN (by simp [ho])) (noB (by simp [ho]))⟩
  · exact ⟨.declin (bField w), rfl, c16_eq_of_fields ho hz (noN (by simp [ho])) rfl⟩
  · exact ⟨.decang (bField w) (nField w), rfl, c16_eq_of_fields ho hz rfl rfl⟩
  · exact ⟨.frame, Bool.eq_true_of_not_eq_false fun h => hfl ⟨h, ho⟩,
      c16_eq_of_fields ho hz (noN (by simp [ho])) (noB (by simp [ho]))⟩

/-- R76: exactly the listed words are illegal. -/
theorem decodeFor_eq_error_iff (fl : Bool) (w : Word) :
    (∃ r, decodeFor fl w = .error r) ↔ IllegalFields fl w := by
  constructor
  · rintro ⟨r, hr⟩
    by_contra h
    obtain ⟨i, hi, hw⟩ := exists_encode_of_not_illegalFields h
    exact ne_encode_of_illegal hr hi hw.symm
  · intro h
    cases hd : decodeFor fl w with
    | error r => exact ⟨r, rfl⟩
    | ok i =>
      rw [← encode_of_decodeFor hd] at h
      exact absurd h (not_illegalFields_encode (Machine.wellFormed_of_decodeFor hd))

end Sys2Proof

namespace Sys2Proof.Machine

open Sys2Proof

/-- R76, R78: an illegal word is refused. -/
theorem onCommand_of_illegal {w : Word} {s : State} {r : Reject} (hd : decodeFor s.cfg.withFrameLayer w = .error r) :
    onCommand w s = .next (refuse s) := by
  simp [onCommand, hd]

/-- Settles O3: the legal words are the encodings, and the meaning of an illegal word is the refusal. -/
theorem illegalWordsAreRefused : Obligations.IllegalWordsAreRefused :=
  fun s w => ⟨decodeFor_eq_error_iff s.cfg.withFrameLayer w, fun ⟨_, hd⟩ => onCommand_of_illegal hd⟩

end Sys2Proof.Machine
end

section
/-! Which command is performed and which is refused (R77, R78): the settling of O5 and O6. -/

namespace Sys2Proof.Machine

open Sys2Proof

/-- R77, R78: a command that is not performed in the state, or that the build does not have, is refused. -/
theorem exec_of_not_performed {i : Instr} {s : State}
    (h : performedIn i s.st = false ∨ wellFormed s.cfg.withFrameLayer i = false) : exec i s = .next (refuse s) := by
  cases i with
  | sync =>
    have hs : s.st ≠ .unsynced := by simpa [performedIn, wellFormed] using h
    exact ((execSync_cases s).resolve_left fun hc => hs hc.1).2
  | abort =>
    have hs : s.st = .faulted := by simpa [performedIn, wellFormed] using h
    exact ((execAbort_cases s).resolve_right fun hc => hc.1 hs).2
  | declin b => simp [performedIn, wellFormed] at h
  | decang b n => simp [performedIn, wellFormed] at h
  | frame =>
    have hs : ¬(s.st = .synced ∧ s.cfg.withFrameLayer = true) := by
      rintro ⟨hst, hf⟩
      simp [performedIn, wellFormed, hst, hf] at h
    exact if_neg hs

/-- R77: a command performed in the state, in a build that has it and knows the layout, is not refused. -/
theorem exec_of_performed {i : Instr} {s : State} (hp : performedIn i s.st = true)
    (hw : wellFormed s.cfg.withFrameLayer i = true) (hl : s.cfg.layoutKnown = true) :
    ∃ t, exec i s = .next t ∧ t.out.refused = false := by
  cases i with
  | sync =>
    have hs : s.st = .unsynced := of_decide_eq_true hp
    exact ⟨syncStarted s, if_pos hs, rfl⟩
  | abort =>
    have hs : s.st ≠ .faulted := of_decide_eq_true hp
    exact ⟨aborted s, if_neg hs, rfl⟩
  | declin b => exact ⟨_, rfl, rfl⟩
  | decang b n => exact ⟨_, rfl, rfl⟩
  | frame =>
    have hs : s.st = .synced := of_decide_eq_true hp
    exact ⟨frameStarted s, (if_pos ⟨hs, hw⟩).trans (if_pos hl), rfl⟩

/-- R77: every command answers a next state in a build that has it and knows the layout, and is accepted exactly where
the table has it performed. -/
theorem exec_accepted_iff {i : Instr} {s : State} (hw : wellFormed s.cfg.withFrameLayer i = true)
    (hl : s.cfg.layoutKnown = true) : ∃ t, exec i s = .next t ∧ (t.out.refused = false ↔ performedIn i s.st = true) := by
  cases hp : performedIn i s.st with
  | false => exact ⟨refuse s, exec_of_not_performed (.inl hp), by simp⟩
  | true =>
    obtain ⟨t, ht, hr⟩ := exec_of_performed hp hw hl
    exact ⟨t, ht, by simp [hr]⟩

/-- R76: a build with the frame layer has every operation. -/
theorem wellFormed_frameLayer (i : Instr) : wellFormed true i = true := by
  cases i <;> rfl

/-- R77: the states that are not `FAULTED`. -/
theorem St.ne_faulted_iff (x : St) : x ≠ .faulted ↔ x = .unsynced ∨ x = .hunt ∨ x = .synced ∨ x = .decoding := by
  cases x <;> decide

/-- Settles O5: `exec_accepted_iff`, with the table read row by row. -/
theorem commandsArePerformedByTheTable : Obligations.CommandsArePerformedByTheTable := by
  intro i s hf hl
  have hw : wellFormed s.cfg.withFrameLayer i = true := hf ▸ wellFormed_frameLayer i
  obtain ⟨t, ht, hr⟩ := exec_accepted_iff hw hl
  refine ⟨t, ht, hr.trans ?_⟩
  cases i with
  | abort => simpa [performedIn] using s.st.ne_faulted_iff
  | _ => simp [performedIn]

/-- Settles O6: an illegal word by `onCommand_of_illegal`, a legal one by the refusal of its meaning. -/
theorem refusedCommandChangesNothing : Obligations.RefusedCommandChangesNothing := by
  refine ⟨fun w s h => ?_, fun i s h => exec_of_not_performed h⟩
  rcases h with ⟨r, hd⟩ | ⟨i, hd, hp⟩
  · exact onCommand_of_illegal hd
  · exact (onCommand_of_decodeFor hd).trans (exec_of_not_performed (.inl hp))

end Sys2Proof.Machine
end

section
/-! The default heading layout (R68): the settling of O57. -/

namespace Sys2Proof.Machine

open Sys2Proof

/-- R68: the magnitude of the default layout is the byte below bit 7. -/
theorem headingSignBit7_mag (b : Byte) : (headingSignBit7 b).1.toNat = b.toNat % 128 := by
  have hlt : b.toNat % 128 < 256 := by omega
  simpa [headingSignBit7] using hlt

/-- R68: the sign flag of the default layout is set exactly from 128 on. -/
theorem headingSignBit7_neg (b : Byte) : (headingSignBit7 b).2 = true ↔ 128 ≤ b.toNat := by
  have hmsb : (headingSignBit7 b).2 = b.msb := (BitVec.msb_eq_getLsbD_last b).symm
  simp [hmsb, BitVec.msb_eq_decide]

/-- R98, R110: the default table up to byte 127, whose own magnitude is `0x3FC90FDB`; evaluated over the 256 bytes. -/
theorem amag_le_of_lt_128 : ∀ b : Byte, b.toNat < 128 → amag b ≤ 0x3FC90FDB := by decide +kernel

/-- Settles O57: the two fields of `headingSignBit7`, and the table bounded on the magnitudes it can give (R110); byte 2 is
not an argument of the default layout. -/
theorem defaultHeadingIsBit7AndMagnitude : Obligations.DefaultHeadingIsBit7AndMagnitude := by
  refine ⟨fun b1 b2 => ⟨rfl, headingSignBit7_mag b1, headingSignBit7_neg b1, amag_le_of_lt_128 _ ?_⟩,
    fun b1 b2 b2' => rfl, fun c r x hl => by simp [decodeRobot, headingOf, hl]⟩
  have hmag : (headingOf .signBit7 b1 b2).1.toNat = b1.toNat % 128 := headingSignBit7_mag b1
  omega

end Sys2Proof.Machine
end

section
/-! `SYNC` and `ABORT` as whole-state equalities (R84, R90): the settling of O8 and O9. -/

namespace Sys2Proof.Machine

open Sys2Proof

/-- R84: `SYNC` in `UNSYNCED`. -/
theorem exec_sync_of_unsynced {s : State} (h : s.st = .unsynced) : exec .sync s = .next (syncStarted s) := if_pos h

/-- Settles O8: `SYNC` starts the hunt in `UNSYNCED`, and is not performed in any other state. -/
theorem syncStartsAHunt : Obligations.SyncStartsAHunt :=
  fun _ => ⟨exec_sync_of_unsynced, fun hs => exec_of_not_performed (.inl (decide_eq_false hs))⟩

/-- R90, R134: with the frame layer, dropping the frame in progress clears `JS` and `CNT`. -/
theorem dropFrame_of_layer {s : State} (h : s.cfg.withFrameLayer = true) :
    dropFrame s = { s with frame := { s.frame with js := false, cnt := 0 } } := by
  simp [dropFrame, h]

/-- R5: without the frame layer there is no frame to drop. -/
theorem dropFrame_of_no_layer {s : State} (h : s.cfg.withFrameLayer = false) : dropFrame s = s := by
  simp [dropFrame, h]

/-- R90: `ABORT` in a state that is not `FAULTED`. -/
theorem exec_abort_of_ne_faulted {s : State} (h : s.st ≠ .faulted) : exec .abort s = .next (aborted s) := if_neg h

/-- Settles O9: an accepted `ABORT` drops the frame in progress, which means `JS` and `CNT` where they exist. -/
theorem abortReturnsToUnsynced : Obligations.AbortReturnsToUnsynced := by
  refine fun s => ⟨fun hs hf => ?_, fun hs hf => ?_, fun hs => exec_of_not_performed (.inl (by simp [performedIn, hs]))⟩
  · rw [exec_abort_of_ne_faulted hs, aborted, dropFrame_of_layer hf]
  · rw [exec_abort_of_ne_faulted hs, aborted, dropFrame_of_no_layer hf]

end Sys2Proof.Machine
end

section
/-! The hunt step, and the two bytes a hunt needs (R85, R86): the settling of O10 and O11. -/

namespace Sys2Proof.Machine

open Sys2Proof

/-- R86: a byte taken during a hunt is a hunt step. -/
theorem onEvent_rx_of_hunt {s : State} (hs : s.st = .hunt) (b : Byte) :
    onEvent (.rx b) s = .next (huntStep b s) := by
  simp [onEvent, onRx, hs]

/-- R86: the marker after a marker is the sync event. -/
theorem huntStep_eq_syncEvent {b : Byte} {s : State} (h : s.lv = true ∧ s.last = syncMarker ∧ b = syncMarker) :
    huntStep b s = syncEvent (rxByte s) := if_pos h

/-- R86: any other byte shifts the window. -/
theorem huntStep_eq_windowShifted {b : Byte} {s : State} (h : ¬(s.lv = true ∧ s.last = syncMarker ∧ b = syncMarker)) :
    huntStep b s = windowShifted b s := if_neg h

/-- Settles O10: the two branches of the hunt step, which are the next states `syncEvent` and `windowShifted`. -/
theorem huntStepSyncsOrShifts : Obligations.HuntStepSyncsOrShifts := by
  refine fun s b hs => ⟨fun hpair => ?_, fun hpair => ?_⟩
  · exact (onEvent_rx_of_hunt hs b).trans (congrArg _ (huntStep_eq_syncEvent hpair))
  · exact (onEvent_rx_of_hunt hs b).trans (congrArg _ (huntStep_eq_windowShifted hpair))

/-- R85, R86: the sync event is the second byte of its hunt at least: the byte before it set `LV` and was counted. -/
theorem Effect.two_bytes_of_evSync {e : Event} {s t : State} (he : Effect e s t) (h : HuntCounted s)
    (hev : t.out.evSync = true) : t.ghost.huntStart + 2 ≤ t.ghost.consumed := by
  obtain ⟨hst, hsynced⟩ := he.evSync_iff.mp hev
  cases he with
  | pair _ hv =>
    have hone : s.ghost.huntStart + 1 ≤ s.ghost.consumed := by simpa [hv] using h hst
    exact Nat.succ_le_succ hone
  | _ => simp_all

/-- Settles O11: the window is empty after `SYNC`, so the first byte only shifts it; and a sync event needs `LV = 1`, which
the invariant has paid for with a byte of this hunt. -/
theorem huntNeedsTwoBytesOfItsOwn : Obligations.HuntNeedsTwoBytesOfItsOwn := by
  refine ⟨fun s b hs => ⟨syncStarted s, windowShifted b (syncStarted s), exec_sync_of_unsynced hs, ?_, rfl, rfl, rfl⟩,
    fun s t hinv hst hev => ?_⟩
  · rw [onEvent_rx_of_hunt rfl, huntStep_eq_windowShifted (by simp)]
  · obtain ⟨e, v, -, he⟩ := step_effect hst
    exact he.two_bytes_of_evSync hinv.hunt hev

end Sys2Proof.Machine
end

section
/-! A hunt with commands between its bytes (R84 to R89, R94): the settling of O12 and O13. `HuntOver s bs t` says all that a
hunt without a pair does while it takes `bs`; `runs_hunt` is the induction over the turns, with any commands but `ABORT`
among them, and the end at a pair is one step more. -/

namespace Sys2Proof.Machine

open Sys2Proof

/-! ### The first marker pair -/

/-- R94: the pair `firstPair` gives is a pair of the list. -/
theorem pairAt_of_firstPair {bs : List Byte} {k : Nat} (h : firstPair bs = some k) : PairAt bs k :=
  of_decide_eq_true (List.find?_some (p := fun j => decide (PairAt bs j)) h)

/-- R94: there is no pair among the bytes before the end of the first one. -/
theorem firstPair_take_eq_none {bs : List Byte} {k : Nat} (h : firstPair bs = some k) : firstPair (bs.take k) = none := by
  obtain ⟨-, -, hfirst⟩ := List.find?_range_eq_some.mp h
  refine List.find?_eq_none.mpr fun j hj hpair => ?_
  have hjk : j < k := by simp at hj; omega
  have hpair' : PairAt bs j := by
    obtain ⟨hpos, hx, hy⟩ := of_decide_eq_true hpair
    exact ⟨hpos, (List.getElem?_take_of_lt (by omega)).symm.trans hx, (List.getElem?_take_of_lt hjk).symm.trans hy⟩
  simpa [hpair'] using hfirst j hjk

/-- R87, R94: bytes whose first pair ends with them are a list without a pair, ending in a marker, and one marker more. -/
theorem exists_of_firstPair_at_end {bs : List Byte} {k : Nat} (h : firstPair bs = some k) (hlen : bs.length = k + 1) :
    ∃ as, bs = as ++ [syncMarker] ∧ as.length = k ∧ as.getLast? = some syncMarker ∧ firstPair as = none := by
  obtain ⟨hpos, hx, hy⟩ := pairAt_of_firstPair h
  refine ⟨bs.take k, ?_, by simp [hlen], ?_, firstPair_take_eq_none h⟩
  · calc bs = bs.take (k + 1) := (List.take_of_length_le hlen.le).symm
      _ = bs.take k ++ [syncMarker] := by rw [List.take_add_one, hy, Option.toList_some]
  · rw [List.getLast?_take, if_neg (by omega), hx, Option.some_or]

/-! ### Turns that feed bytes -/

/-- R87: the next of such turns is a delivery, or a command but `ABORT`. -/
theorem feeds_cons_cases {x : Turn} {xs : List Turn} {n : Nat} (h : Feeds (x :: xs) n) :
    (x = .deliver ∧ ∃ m, n = m + 1 ∧ Feeds xs m) ∨ ∃ w, x = .command w ∧ w ≠ encode .abort ∧ Feeds xs n := by
  obtain ⟨hcount, hall⟩ := h
  obtain ⟨hx, hxs⟩ := List.forall_mem_cons.mp hall
  rcases hx with rfl | ⟨w, rfl, hw⟩
  · exact .inl ⟨rfl, xs.count .deliver, by simpa using hcount.symm, rfl, hxs⟩
  · exact .inr ⟨w, rfl, hw, by simpa using hcount, hxs⟩

/-- The first of such turns feed some of the bytes. -/
theorem Feeds.of_append {xs ys : List Turn} {n : Nat} (h : Feeds (xs ++ ys) n) : ∃ m, m ≤ n ∧ Feeds xs m := by
  obtain ⟨hcount, hall⟩ := h
  refine ⟨xs.count .deliver, ?_, rfl, fun x hx => hall x (List.mem_append_left ys hx)⟩
  rw [← hcount, List.count_append]
  exact Nat.le_add_right _ _

/-- R36, R43: the block pulls bytes while it hunts and while it decodes a frame. -/
theorem St.pulls_iff (x : St) : x.pulls = true ↔ x = .hunt ∨ x = .decoding := by
  cases x <;> simp [St.pulls]

/-- R77, R96: while the block pulls bytes, a command that is not `ABORT` changes the outputs alone: a codec command delivers
its result, and every other one is refused. -/
theorem onCommand_of_pulls {w : Word} {s : State} (hs : s.st.pulls = true) (hw : w ≠ encode .abort) :
    ∃ o, onCommand w s = .next (s.withOut o) ∧ o.evSync = false := by
  obtain ⟨hsync, hframe⟩ : s.st ≠ .unsynced ∧ s.st ≠ .synced := by
    rcases s.st.pulls_iff.mp hs with h | h <;> simp [h]
  rcases onCommand_cases w s with ⟨i, hd, he⟩ | ⟨r, -, he⟩
  · rw [he]
    cases i with
    | sync => exact ⟨_, exec_of_not_performed (.inl (decide_eq_false hsync)), rfl⟩
    | abort => exact absurd (encode_of_decodeFor hd).symm hw
    | declin b => exact ⟨_, rfl, rfl⟩
    | decang b n => exact ⟨_, rfl, rfl⟩
    | frame => exact ⟨_, exec_of_not_performed (.inl (decide_eq_false hframe)), rfl⟩
  · exact ⟨_, he, rfl⟩

/-! ### What a hunt does between its start and a pair -/

/-- R86, R89: the hunt of `s` took `bs`, saw no pair, and is on in `t`: the window holds the last byte seen, the bytes are
counted, and nothing else changed but the outputs and the environment. -/
structure HuntOver (s : State) (bs : List Byte) (t : State) : Prop where
  st     : t.st = .hunt
  quiet  : t.out.evSync = false
  window : t.window = (s.window ++ bs).getLast?.toList
  ghost  : t.ghost = { s.ghost with consumed := s.ghost.consumed + bs.length }
  cfg    : t.cfg = s.cfg
  frame  : t.frame = s.frame

/-- R25: the window is at most one byte. -/
theorem getLast?_window (s : State) : s.window.getLast?.toList = s.window := by
  cases h : s.lv <;> simp [State.window, h]

/-- A hunt that is on and reported nothing has gone on over no byte at all. -/
theorem HuntOver.refl {s : State} (hs : s.st = .hunt) (hquiet : s.out.evSync = false) : HuntOver s [] s :=
  ⟨hs, hquiet, by rw [List.append_nil, getLast?_window], rfl, rfl, rfl⟩

/-- A step that shifts the window, and then the rest of the hunt. -/
theorem HuntOver.of_windowShifted {s t : State} {b : Byte} {bs : List Byte} {v : Env}
    (h : HuntOver (windowShifted b (s.withEnv v)) bs t) : HuntOver s (b :: bs) t where
  st := h.st
  quiet := h.quiet
  window := by
    calc t.window = (b :: bs).getLast?.toList := h.window
      _ = (s.window ++ b :: bs).getLast?.toList := by rw [List.getLast?_append_of_ne_nil _ (List.cons_ne_nil b bs)]
  ghost := by simpa [Nat.add_assoc, Nat.add_comm 1] using h.ghost
  cfg := h.cfg
  frame := h.frame

/-- A command step that changes the outputs alone, and then the rest of the hunt. -/
theorem HuntOver.of_withOut {s t : State} {bs : List Byte} {v : Env} {o : Outputs}
    (h : HuntOver ((s.withEnv v).withOut o) bs t) : HuntOver s bs t :=
  ⟨h.st, h.quiet, h.window, h.ghost, h.cfg, h.frame⟩

/-- R25: a window of one byte is that byte as `LAST`, with `LV` set. -/
theorem window_eq_singleton_iff {s : State} {b : Byte} : s.window = [b] ↔ s.lv = true ∧ s.last = b := by
  cases h : s.lv <;> simp [State.window, h]

/-- R25: the window is empty exactly with `LV = 0`. -/
theorem window_eq_nil_iff {s : State} : s.window = [] ↔ s.lv = false := by
  cases h : s.lv <;> simp [State.window, h]

/-! ### Runs -/

/-- A run goes on from where its first steps arrive. -/
theorem runs_add {m : Nat} (n : Nat) {s t : State} (h : runs m s = .next t) : runs (m + n) s = runs n t := by
  induction m generalizing s with
  | zero => cases h; rw [Nat.zero_add]
  | succ m ih =>
    cases hs : step s with
    | next u =>
      calc runs (m + 1 + n) s = runs (m + n + 1) s := by rw [Nat.add_right_comm]
        _ = runs (m + n) u := runs_succ hs
        _ = runs n t := ih ((runs_succ hs).symm.trans h)
    | fault f => simp [runs, Host.Core.run, show core.step s = .fault f from hs] at h
    | refused r => simp [runs, Host.Core.run, show core.step s = .refused r from hs] at h

/-- R87, R89: over bytes that make no pair with the window or among themselves, with any commands but `ABORT` between them,
the hunt goes on, and takes exactly these bytes. -/
theorem runs_hunt {s : State} {pre : List Turn} {bs : List Byte} {rest : Feed Byte} {ts : Feed Turn} (hs : s.st = .hunt)
    (hquiet : s.out.evSync = false) (hpair : (s.window ++ bs).IsChain NotPair) (hd : Delivers s.env.stream bs rest)
    (hf : Feeds pre bs.length) (hp : Presents s.env.turns pre ts) :
    ∃ t, runs pre.length s = .next t ∧ HuntOver s bs t ∧ t.env = { turns := ts, stream := rest } := by
  induction pre generalizing s bs with
  | nil =>
    obtain rfl : bs = [] := List.length_eq_zero_iff.mp hf.1.symm
    obtain rfl : s.env.turns = ts := hp
    obtain rfl : s.env.stream = rest := hd
    exact ⟨s, rfl, .refl hs hquiet, rfl⟩
  | cons x xs ih =>
    obtain ⟨us, hu, hp⟩ := hp
    rcases feeds_cons_cases hf with ⟨rfl, m, hm, hf⟩ | ⟨w, rfl, hw, hf⟩
    · obtain ⟨b, bs, rfl⟩ := List.exists_cons_of_length_eq_add_one hm
      obtain ⟨g, hb, hd⟩ := hd
      obtain rfl : bs.length = m := Nat.succ.inj hm
      have hstep : step s = .next (windowShifted b (s.withEnv { turns := us, stream := g })) := by
        rw [step_deliver_of_hunt hs hu hb, huntStep_of_notPair (by simpa using hpair)]
      have htail : (b :: bs).IsChain NotPair := hpair.right_of_append
      obtain ⟨t, ht, hover, henv⟩ := ih (s := windowShifted b (s.withEnv { turns := us, stream := g })) hs rfl
        (by simpa using htail) hd hf hp
      exact ⟨t, (runs_succ hstep).trans ht, hover.of_windowShifted, henv⟩
    · obtain ⟨o, ho, hev⟩ := onCommand_of_pulls (w := w) (s := s.withEnv { s.env with turns := us })
        ((St.pulls_iff _).mpr (.inl hs)) hw
      obtain ⟨t, ht, hover, henv⟩ := ih (s := (s.withEnv { s.env with turns := us }).withOut o) hs hev hpair hd hf hp
      exact ⟨t, (runs_succ ((step_command hu).trans ho)).trans ht, hover.of_withOut, henv⟩

/-- R87: so at every point on the way, the hunt has gone on over some of the bytes. -/
theorem runs_hunt_midway {s : State} {pre : List Turn} {bs : List Byte} {rest : Feed Byte} {ts : Feed Turn}
    (hs : s.st = .hunt) (hquiet : s.out.evSync = false) (hpair : (s.window ++ bs).IsChain NotPair)
    (hd : Delivers s.env.stream bs rest) (hf : Feeds pre bs.length) (hp : Presents s.env.turns pre ts) {j : Nat}
    (hj : j ≤ pre.length) : ∃ as u, runs j s = .next u ∧ HuntOver s as u := by
  rw [← List.take_append_drop j pre] at hf hp
  obtain ⟨us, hp, -⟩ := Feed.starts_append.mp hp
  obtain ⟨m, hm, hf⟩ := hf.of_append
  rw [← List.take_append_drop m bs] at hd hpair
  obtain ⟨g, hd, -⟩ := Feed.starts_append.mp hd
  rw [← List.append_assoc] at hpair
  rw [← List.length_take_of_le hm] at hf
  obtain ⟨u, hu, hover, -⟩ := runs_hunt hs hquiet hpair.left_of_append hd hf hp
  rw [List.length_take_of_le hj] at hu
  exact ⟨_, u, hu, hover⟩

/-- R86: a hunt whose last byte seen is a marker ends with the marker delivered next. -/
theorem step_deliver_of_marker {s : State} {bs : Feed Byte} {ts : Feed Turn} (hs : s.st = .hunt)
    (hwin : s.window = [syncMarker]) (ht : nextTurn s.env.turns = some (.deliver, ts))
    (hb : nextByte s.env.stream = some (syncMarker, bs)) :
    step s = .next (syncEvent (rxByte (s.withEnv { turns := ts, stream := bs }))) := by
  obtain ⟨hv, hl⟩ := window_eq_singleton_iff.mp hwin
  exact (step_deliver_of_hunt hs ht hb).trans (congrArg _ (huntStep_eq_syncEvent ⟨hv, hl, rfl⟩))

/-- R87: a hunt with an empty window ends at the first pair of the stream, with the delivery of its second marker. -/
theorem runs_hunt_pair {s : State} {pre : List Turn} {as : List Byte} {rest : Feed Byte} {ts : Feed Turn}
    (hs : s.st = .hunt) (hquiet : s.out.evSync = false) (hwin : s.window = []) (hpair : firstPair as = none)
    (hlast : as.getLast? = some syncMarker) (hd : Delivers s.env.stream (as ++ [syncMarker]) rest)
    (hf : Feeds pre as.length) (hp : Presents s.env.turns (pre ++ [.deliver]) ts) :
    ∃ u, HuntOver s as u ∧
      runs (pre.length + 1) s = .next (syncEvent (rxByte (u.withEnv { turns := ts, stream := rest }))) := by
  obtain ⟨us, hpre, _, hu, rfl⟩ := Feed.starts_append.mp hp
  obtain ⟨g, has, _, hb, rfl⟩ := Feed.starts_append.mp hd
  obtain ⟨u, hrun, hover, henv⟩ :=
    runs_hunt hs hquiet (by simpa [hwin] using (firstPair_eq_none_iff as).mp hpair) has hf hpre
  have hmark : u.window = [syncMarker] := by simpa [hwin, hlast] using hover.window
  have hstep := step_deliver_of_marker hover.st hmark (by rw [henv]; exact hu) (by rw [henv]; exact hb)
  exact ⟨u, hover, (runs_add 1 hrun).trans (runs_succ hstep)⟩

/-- Settles O12: `SYNC` starts the hunt with an empty window (`step_sync`); before the pair it is on at every point
(`runs_hunt_midway`), and it ends with the pair's second byte (`runs_hunt_pair`). -/
theorem huntEndsAtTheFirstPair : Obligations.HuntEndsAtTheFirstPair := by
  rintro s k bs rest pre ts hs hfirst hlen hd hf ⟨us, hu, hp⟩
  obtain ⟨as, rfl, rfl, hlast, hpair⟩ := exists_of_firstPair_at_end hfirst hlen
  have hstep := step_sync hs hu
  refine ⟨fun j hj => ?_, ?_⟩
  · obtain ⟨_, hd, -⟩ := Feed.starts_append.mp hd
    obtain ⟨_, hp, -⟩ := Feed.starts_append.mp hp
    obtain ⟨_, u, hrun, hover⟩ := runs_hunt_midway (s := syncStarted (s.withEnv { s.env with turns := us })) rfl rfl
      ((firstPair_eq_none_iff as).mp hpair) hd hf hp hj
    exact ⟨u, (runs_succ hstep).trans hrun, hover.st, hover.quiet, by simp [hover.ghost]⟩
  · obtain ⟨u, hover, hrun⟩ := runs_hunt_pair (s := syncStarted (s.withEnv { s.env with turns := us })) rfl rfl rfl
      hpair hlast hd hf hp
    refine ⟨_, (runs_succ hstep).trans hrun, rfl, rfl, ?_, ?_, ?_, rfl⟩ <;> simp [hover.ghost]

/-- Settles O13: the hunt goes on over all the bytes (`runs_hunt`), and its window is their last one. -/
theorem huntGoesOnWithoutAPair : Obligations.HuntGoesOnWithoutAPair := by
  rintro s bs rest pre ts hs hpair hd hf ⟨us, hu, hp⟩
  obtain ⟨t, hrun, hover, henv⟩ := runs_hunt (s := syncStarted (s.withEnv { s.env with turns := us })) rfl rfl
    ((firstPair_eq_none_iff bs).mp hpair) hd hf hp
  have hwin : t.window = bs.getLast?.toList := hover.window
  have hlv : t.lv = decide (0 < bs.length) := by
    cases h : bs.getLast? with
    | none =>
      obtain rfl : bs = [] := List.getLast?_eq_none_iff.mp h
      exact window_eq_nil_iff.mp hwin
    | some b =>
      obtain ⟨hv, -⟩ := window_eq_singleton_iff.mp (hwin.trans (congrArg _ h))
      have hne : bs ≠ [] := by rintro rfl; simp at h
      simpa [List.length_pos_iff, hne] using hv
  refine ⟨t, (runs_succ (step_sync hs hu)).trans hrun, hover.st, hlv, fun b hb => ?_, ?_, ?_, henv⟩
  · exact (window_eq_singleton_iff.mp (hwin.trans (congrArg _ hb))).2
  · simp [hover.ghost]
  · simp [hover.ghost]

end Sys2Proof.Machine
end

section
/-! Three markers in a row (R88): the settling of O14. The hunt ends with the second marker, and a `FRAME` after it starts at
the header, so the third marker and the byte after it are the two counts. -/

namespace Sys2Proof.Machine

open Sys2Proof

/-! ### Steps that begin a frame -/

/-- R112: `FRAME` presented next in `SYNCED` starts a decode, in a build with the frame layer and a known layout. -/
theorem step_frame {s : State} {ts : Feed Turn} (hs : s.st = .synced) (hfl : s.cfg.withFrameLayer = true)
    (hlay : s.cfg.layoutKnown = true) (ht : nextTurn s.env.turns = some (issue .frame, ts)) :
    step s = .next (frameStarted (s.withEnv { s.env with turns := ts })) := by
  calc step s = onCommand (encode .frame) (s.withEnv { s.env with turns := ts }) := step_command ht
    _ = execFrame (s.withEnv { s.env with turns := ts }) :=
      onCommand_of_decodeFor (s := s.withEnv { s.env with turns := ts }) (decodeFor_encode (i := .frame) hfl)
    _ = .next (frameStarted (s.withEnv { s.env with turns := ts })) := (if_pos ⟨hs, hfl⟩).trans (if_pos hlay)

/-- R36: a byte delivered next during a decode is a decode step. -/
theorem step_deliver_of_decoding {s : State} {b : Byte} {bs : Feed Byte} {ts : Feed Turn} (hs : s.st = .decoding)
    (ht : nextTurn s.env.turns = some (.deliver, ts)) (hb : nextByte s.env.stream = some (b, bs)) :
    step s = decodeStep b (s.withEnv { turns := ts, stream := bs }) := by
  have hpull : s.st.pulls = true := (St.pulls_iff _).mpr (.inr hs)
  rw [step_of_nextEvent (nextEvent_deliver hpull ht hb)]
  simp [onEvent, onRx, hs]

/-- R114: the first header byte is gathered. -/
theorem decodeStep_first_header {b : Byte} {s : State} (hp : s.frame.ph = .hdr) (hc : s.frame.cnt = 0) :
    decodeStep b s = .next (gather b (rxByte s)) := by
  simp [decodeStep, hp, hc]

/-- R115: the second header byte completes the header. -/
theorem decodeStep_second_header {b : Byte} {s : State} (hp : s.frame.ph = .hdr) (hc : s.frame.cnt = 1) :
    decodeStep b s = .next (headerByte b (rxByte s)) := by
  simp [decodeStep, hp, hc]

/-! ### The header byte keeps the counts it stores -/

/-- R115, R116: whatever comes after the header, the clamped counts stand, and neither a sync event is counted nor the
environment read. -/
theorem headerByte_stores (b : Byte) (s : State) :
    (headerByte b s).frame.nr = clamp s.frame.scr[0] maxRobots ∧
    (headerByte b s).frame.nb = clamp b s.cfg.maxBalls ∧
    (headerByte b s).ghost.syncEvents = s.ghost.syncEvents ∧ (headerByte b s).env = s.env := by
  rcases headerByte_cases b s with ⟨-, he⟩ | ⟨-, he⟩
  · rw [he]; exact ⟨rfl, rfl, rfl, rfl⟩
  · rcases afterRobots_cases (storeHeader b s) with ⟨-, ha⟩ | ⟨-, ha⟩ <;> rw [he, ha] <;> exact ⟨rfl, rfl, rfl, rfl⟩

/-- R115: with the robot list and a robot count that is not 0, the records of the robots come next. -/
theorem headerByte_of_robots {b : Byte} {s : State} (hl : s.cfg.withRobotList = true)
    (hr : clamp s.frame.scr[0] maxRobots ≠ 0) : headerByte b s = goTo .rob 0 (storeHeader b s) := by
  rcases headerByte_cases b s with ⟨-, he⟩ | ⟨hzero, -⟩
  · exact he
  · refine absurd ?_ hr
    simpa [robotsToRead, hl, BitVec.toNat_eq] using hzero

/-- R88, R115: a synced block whose marker pair is consumed reads the next two bytes after `FRAME` as the header. -/
theorem runs_frame_header {s : State} {x y : Byte} {rest : Feed Byte} {ts : Feed Turn} (hs : s.st = .synced)
    (hfl : s.cfg.withFrameLayer = true) (hlay : s.cfg.layoutKnown = true) (hjs : s.frame.js = true)
    (hd : Delivers s.env.stream [x, y] rest) (hp : Presents s.env.turns (issue .frame :: deliveries 2) ts) :
    ∃ u, runs 3 s = .next (headerByte y u) ∧ u.st = .decoding ∧ u.cfg = s.cfg ∧ u.frame.scr[0] = x ∧
      u.ghost.syncEvents = s.ghost.syncEvents ∧ u.env = { turns := ts, stream := rest } := by
  obtain ⟨ts₁, hts₁, ts₂, hts₂, _, hts₃, rfl⟩ := hp
  obtain ⟨bs₁, hx, _, hy, rfl⟩ := hd
  have hstart := step_frame hs hfl hlay hts₁
  have hfirst := (step_deliver_of_decoding (s := frameStarted (s.withEnv { s.env with turns := ts₁ })) rfl hts₂ hx).trans
    (decodeStep_first_header (by simp [hjs]) rfl)
  have hsecond := (step_deliver_of_decoding (s := gather x (rxByte ((frameStarted
    (s.withEnv { s.env with turns := ts₁ })).withEnv { turns := ts₂, stream := bs₁ }))) rfl hts₃ hy).trans
    (decodeStep_second_header (by simp [hjs]) rfl)
  refine ⟨_, (runs_succ hstart).trans ((runs_succ hfirst).trans (runs_succ hsecond)), rfl, rfl, ?_, rfl, rfl⟩
  simp

/-- R88: a hunt over two markers takes both and ends; the marker pair of a frame to come is then consumed. -/
theorem runs_sync_two_markers {s : State} {rest : Feed Byte} {ts : Feed Turn} (hs : s.st = .unsynced)
    (hd : Delivers s.env.stream [syncMarker, syncMarker] rest)
    (hp : Presents s.env.turns (issue .sync :: deliveries 2) ts) :
    ∃ t, runs 3 s = .next t ∧ t.st = .synced ∧ t.cfg = s.cfg ∧ (s.cfg.withFrameLayer = true → t.frame.js = true) ∧
      t.ghost.syncEvents = s.ghost.syncEvents + 1 ∧ t.ghost.consumed = s.ghost.consumed + 2 ∧
      t.env = { turns := ts, stream := rest } := by
  obtain ⟨us, hu, hp⟩ := hp
  obtain ⟨u, hover, hrun⟩ := runs_hunt_pair (s := syncStarted (s.withEnv { s.env with turns := us }))
    (pre := [.deliver]) (as := [syncMarker]) rfl rfl rfl (by decide) rfl hd ⟨rfl, by simp⟩ hp
  refine ⟨_, (runs_succ (step_sync hs hu)).trans hrun, rfl, hover.cfg, fun hfl => ?_, ?_, ?_, rfl⟩
  · simp [hover.cfg, hfl]
  · simp [hover.ghost]
  · simp [hover.ghost]

/-- Settles O14: the hunt ends with the second of the three markers (`runs_sync_two_markers`); the header a `FRAME` then
reads is the third one and `x` (`runs_frame_header`). -/
theorem thirdMarkerIsHeaderData : Obligations.ThirdMarkerIsHeaderData := by
  intro s x rest ts hs hd
  obtain ⟨g, hmarkers, hheader⟩ := (Feed.starts_append (xs := [0xFF, 0xFF]) (ys := [0xFF, x])).mp hd
  refine ⟨fun hp => ?_, fun hfl hlay hp => ?_⟩
  · obtain ⟨t, hrun, hst, -, -, hsyncs, hcons, henv⟩ := runs_sync_two_markers hs hmarkers hp
    exact ⟨t, hrun, hst, hsyncs, hcons, congrArg Env.turns henv, by rw [henv]; exact hheader⟩
  · obtain ⟨us, hp, hp'⟩ := Feed.starts_append.mp hp
    obtain ⟨t, hrun, hst, hcfg, hjs, hsyncs, -, henv⟩ := runs_sync_two_markers hs hmarkers hp
    obtain ⟨u, hrun', hst', hcfg', hscr, hsyncs', henv'⟩ := runs_frame_header (x := 0xFF) (y := x) hst (hcfg ▸ hfl)
      (hcfg ▸ hlay) (hjs hfl) (by rw [henv]; exact hheader) (by rw [henv]; exact hp')
    obtain ⟨hnr, hnb, hsync, hsame⟩ := headerByte_stores x u
    have hten : clamp u.frame.scr[0] maxRobots = 10 := by rw [hscr]; decide
    refine ⟨headerByte x u, (runs_add 3 hrun).trans hrun', hnr.trans hten, ?_, fun hl => ?_, ?_, hsame.trans henv'⟩
    · rw [hnb, clamp_toNat, hcfg', hcfg]
    · have hgo : headerByte x u = goTo .rob 0 (storeHeader x u) :=
        headerByte_of_robots (by rw [hcfg', hcfg, hl]) (by rw [hten]; decide)
      rw [hgo]
      exact ⟨hst', rfl⟩
    · rw [hsync, hsyncs', hsyncs]

end Sys2Proof.Machine
end

section
/-! binary32 as a number (R18): the value and the order of plain patterns, and a criterion for the nearest one. What the
settlings of the codec's obligations share. -/

namespace Sys2Proof.Machine

open Sys2Proof

/-! ### Fields and value -/

/-- R18: without its sign bit, a pattern is its exponent field and then its fraction field. -/
theorem toNat_of_f32Sign_false {x : F32} (h : f32Sign x = false) : x.toNat = f32Exp x * 2 ^ 23 + f32Frac x := by
  have hlt : x.toNat < 2 ^ 31 := by
    have hmsb : x.msb = false := (BitVec.msb_eq_getLsbD_last x).trans h
    simpa [BitVec.msb_eq_decide] using hmsb
  simp only [f32Exp, f32Frac, BitVec.extractLsb'_toNat, Nat.shiftRight_eq_div_pow]
  omega

theorem f32Frac_lt (x : F32) : f32Frac x < 2 ^ 23 := (x.extractLsb' 0 23).isLt

/-- R18: the magnitude of a pattern whose exponent field is not 0. -/
theorem f32Units_of_normal {x : F32} (h : 1 ≤ f32Exp x) : f32Units x = (2 ^ 23 + f32Frac x) * 2 ^ f32Exp x :=
  if_neg fun hz => absurd hz.1 (by omega)

/-- R18: the value of a pattern with sign bit 0. -/
theorem f32Value_of_pos {x : F32} (h : f32Sign x = false) : f32Value x = f32Units x / 2 ^ 150 := by
  simp [f32Value, h]

/-- R18: the sign bit does not touch the magnitude. -/
theorem abs_f32Value (x : F32) : |f32Value x| = f32Units x / 2 ^ 150 := by
  have hnn : (0 : ℚ) ≤ f32Units x / 2 ^ 150 := by positivity
  cases h : f32Sign x <;> simp [f32Value, h, abs_of_nonneg hnn]

/-! ### Patterns in order are numbers in order -/

/-- R18: a magnitude is below the first one of the next exponent. -/
theorem f32Units_lt (x : F32) : f32Units x < 2 ^ 24 * 2 ^ f32Exp x := by
  have hfrac := f32Frac_lt x
  unfold f32Units
  split
  · positivity
  · exact Nat.mul_lt_mul_of_pos_right (by omega) (by positivity)

/-- A magnitude is at most the first one of any greater exponent. -/
theorem f32Units_le_of_exp_lt {x : F32} {e : Nat} (h : f32Exp x < e) : f32Units x ≤ 2 ^ 23 * 2 ^ e :=
  calc f32Units x ≤ 2 ^ 24 * 2 ^ f32Exp x := (f32Units_lt x).le
    _ = 2 ^ 23 * 2 ^ (f32Exp x + 1) := by ring
    _ ≤ 2 ^ 23 * 2 ^ e := Nat.mul_le_mul_left _ (Nat.pow_le_pow_right (by decide) h)

/-- Two plain patterns without sign compare as their magnitudes do. -/
theorem f32Units_le_of_toNat_le {x y : F32} (hx : F32Plain x) (hsx : f32Sign x = false) (hsy : f32Sign y = false)
    (h : x.toNat ≤ y.toNat) : f32Units x ≤ f32Units y := by
  rw [toNat_of_f32Sign_false hsx, toNat_of_f32Sign_false hsy] at h
  have hfx := f32Frac_lt x
  have hfy := f32Frac_lt y
  rcases hx with hzero | ⟨hone, -⟩
  · simp [f32Units, hzero]
  · have hy : 1 ≤ f32Exp y := by omega
    rcases Nat.lt_or_ge (f32Exp x) (f32Exp y) with hlt | hge
    · calc f32Units x ≤ 2 ^ 23 * 2 ^ f32Exp y := f32Units_le_of_exp_lt hlt
        _ ≤ f32Units y := by rw [f32Units_of_normal hy]; exact Nat.mul_le_mul_right _ (by omega)
    · have heq : f32Exp x = f32Exp y := by omega
      rw [f32Units_of_normal hone, f32Units_of_normal hy, heq]
      exact Nat.mul_le_mul_right _ (by omega)

/-- So the greater magnitude is the greater number and the greater pattern. -/
theorem f32_lt_of_units_lt {x y : F32} (hy : F32Plain y) (hsx : f32Sign x = false) (hsy : f32Sign y = false)
    (h : f32Units x < f32Units y) : f32Value x < f32Value y ∧ x < y := by
  refine ⟨?_, ?_⟩
  · rw [f32Value_of_pos hsx, f32Value_of_pos hsy]
    gcongr
  · by_contra hle
    exact absurd (f32Units_le_of_toNat_le hy hsy hsx (BitVec.not_lt.mp hle)) (by omega)

/-! ### The nearest number -/

/-- R18: the unit in the last place of a plain pattern, `2^(e-150)`. -/
def f32Ulp (x : F32) : ℚ := 2 ^ f32Exp x / 2 ^ 150

theorem f32Ulp_pos (x : F32) : 0 < f32Ulp x := by unfold f32Ulp; positivity

/-- A normal number without sign is a whole number of its own units, `2^23` or more. -/
theorem f32Value_eq_mul_ulp {x : F32} (hs : f32Sign x = false) (h : 1 ≤ f32Exp x) :
    f32Value x = ((2 ^ 23 + f32Frac x : ℕ) : ℤ) * f32Ulp x := by
  rw [f32Value_of_pos hs, f32Units_of_normal h, f32Ulp]
  push_cast
  ring

/-- Every plain number is a whole number of the units of `x`, or is not above the least normal number with the exponent
of `x`. -/
theorem f32Value_grid (x y : F32) : (∃ k : ℤ, f32Value y = k * f32Ulp x) ∨ f32Value y ≤ 2 ^ 23 * f32Ulp x := by
  have hpos := f32Ulp_pos x
  cases hs : f32Sign y with
  | true =>
    refine .inr (le_trans ?_ (by positivity : (0 : ℚ) ≤ 2 ^ 23 * f32Ulp x))
    have hnn : (0 : ℚ) ≤ f32Units y / 2 ^ 150 := by positivity
    simpa [f32Value, hs] using hnn
  | false =>
    rw [f32Value_of_pos hs, f32Ulp]
    rcases Nat.lt_or_ge (f32Exp y) (f32Exp x) with hlt | hge
    · refine .inr ?_
      have hle : (f32Units y : ℚ) ≤ 2 ^ 23 * 2 ^ f32Exp x := mod_cast f32Units_le_of_exp_lt hlt
      calc (f32Units y : ℚ) / 2 ^ 150 ≤ 2 ^ 23 * 2 ^ f32Exp x / 2 ^ 150 := by gcongr
        _ = 2 ^ 23 * (2 ^ f32Exp x / 2 ^ 150) := by ring
    · obtain ⟨k, hk⟩ : 2 ^ f32Exp x ∣ f32Units y := by
        unfold f32Units
        split
        · exact dvd_zero _
        · exact (pow_dvd_pow 2 hge).mul_left _
      exact .inl ⟨k, by rw [hk]; push_cast; ring⟩

/-- R18: a normal number strictly within half a unit in the last place of `q`, where `q` has the exponent of that number
or a greater one, is nearer to `q` than every other plain number. -/
theorem abs_sub_lt_of_within_half_ulp {q : ℚ} {x y : F32} (hs : f32Sign x = false) (hx : 1 ≤ f32Exp x)
    (hfloor : 2 ^ 23 * f32Ulp x ≤ q) (hnear : |f32Value x - q| < f32Ulp x / 2) (hne : f32Value x ≠ f32Value y) :
    |f32Value x - q| < |f32Value y - q| := by
  have hpos := f32Ulp_pos x
  obtain ⟨hlo, hhi⟩ := abs_lt.mp hnear
  have hval := f32Value_eq_mul_ulp hs hx
  generalize hm : ((2 ^ 23 + f32Frac x : ℕ) : ℤ) = m at hval
  have hgap (i j : ℚ) (hij : i + 1 ≤ j) : i * f32Ulp x + f32Ulp x ≤ j * f32Ulp x := by
    rw [← add_one_mul]; gcongr
  have hbelow : f32Value y ≤ f32Value x - f32Ulp x → |f32Value x - q| < |f32Value y - q| := fun h =>
    hnear.trans (lt_abs.mpr (.inr (by linarith)))
  have habove : f32Value x + f32Ulp x ≤ f32Value y → |f32Value x - q| < |f32Value y - q| := fun h =>
    hnear.trans (lt_abs.mpr (.inl (by linarith)))
  rcases f32Value_grid x y with ⟨k, hk⟩ | hle
  · rcases lt_trichotomy k m with hlt | rfl | hgt
    · have hk1 : (k : ℚ) + 1 ≤ m := mod_cast hlt
      exact hbelow (by linarith [hgap _ _ hk1])
    · exact absurd (hval.trans hk.symm) hne
    · have hk1 : (m : ℚ) + 1 ≤ k := mod_cast hgt
      exact habove (by linarith [hgap _ _ hk1])
  · rcases Nat.eq_zero_or_pos (f32Frac x) with hz | hf
    · have hleast : f32Value x = 2 ^ 23 * f32Ulp x := by rw [hval, ← hm, hz]; norm_num
      have hlt : f32Value y < f32Value x := lt_of_le_of_ne (hleast ▸ hle) hne.symm
      rw [abs_of_nonpos (by linarith), abs_of_nonpos (by linarith)]
      linarith
    · have hm1 : (2 : ℚ) ^ 23 + 1 ≤ m := by rw [← hm]; exact_mod_cast Nat.add_le_add_left hf _
      exact hbelow (by linarith [hgap _ _ hm1])

/-- R18: so it is `RN32(q)`, with no tie. -/
theorem isRN32_of_within_half_ulp {q : ℚ} {x : F32} (hplain : F32Plain x) (hs : f32Sign x = false) (hx : 1 ≤ f32Exp x)
    (hfloor : 2 ^ 23 * f32Ulp x ≤ q) (hnear : |f32Value x - q| < f32Ulp x / 2) : IsRN32 q x := by
  refine ⟨hplain, fun y _ => ?_⟩
  by_cases hne : f32Value x = f32Value y
  · exact ⟨by rw [hne], fun _ h => absurd hne h⟩
  · have hlt := abs_sub_lt_of_within_half_ulp hs hx hfloor hnear hne
    exact ⟨hlt.le, fun h => absurd h hlt.ne⟩

/-- R18: `RN32(0)` is `+0.0`. -/
theorem isRN32_zero : IsRN32 0 0#32 := by
  have hval : f32Value 0#32 = 0 := by simp [f32Value, show f32Units 0#32 = 0 from rfl]
  refine ⟨by decide, fun y _ => ⟨?_, fun _ _ => by decide⟩⟩
  rw [hval, sub_zero, abs_zero]
  exact abs_nonneg _

/-- The same distance over the naturals, so that it can be evaluated: `x` has the exponent of the ratio `n / d`, or a
lesser one, and is strictly within half a unit in the last place of it; both in units of `2^-150` (`f32Units`). -/
abbrev WithinHalfUlp (n d : Nat) (x : F32) : Prop :=
  1 ≤ f32Exp x ∧ 2 ^ 23 * 2 ^ f32Exp x * d ≤ n ∧ 2 * (f32Units x * d) < 2 * n + 2 ^ f32Exp x * d ∧
  2 * n < 2 * (f32Units x * d) + 2 ^ f32Exp x * d

theorem WithinHalfUlp.floor_le {n d : Nat} {x : F32} (h : WithinHalfUlp n d x) (hd : 0 < d) :
    2 ^ 23 * f32Ulp x ≤ (n : ℚ) / d / 2 ^ 150 := by
  obtain ⟨-, hfloor, -⟩ := h
  have hd' : (0 : ℚ) < d := mod_cast hd
  have hle : (2 : ℚ) ^ 23 * 2 ^ f32Exp x ≤ n / d := by rw [le_div_iff₀ hd']; exact_mod_cast hfloor
  calc 2 ^ 23 * f32Ulp x = 2 ^ 23 * 2 ^ f32Exp x / 2 ^ 150 := (mul_div_assoc ..).symm
    _ ≤ (n : ℚ) / d / 2 ^ 150 := by gcongr

theorem WithinHalfUlp.abs_sub_lt {n d : Nat} {x : F32} (h : WithinHalfUlp n d x) (hd : 0 < d)
    (hs : f32Sign x = false) : |f32Value x - (n : ℚ) / d / 2 ^ 150| < f32Ulp x / 2 := by
  obtain ⟨-, -, habove, hbelow⟩ := h
  have hd' : (0 : ℚ) < d := mod_cast hd
  have hup : (f32Units x : ℚ) - n / d < 2 ^ f32Exp x / 2 := by
    have hnat : 2 * ((f32Units x : ℚ) * d) < 2 * n + 2 ^ f32Exp x * d := mod_cast habove
    rw [sub_lt_iff_lt_add, div_add_div _ _ two_ne_zero hd'.ne', lt_div_iff₀ (by positivity)]
    linarith
  have hdown : (n : ℚ) / d - f32Units x < 2 ^ f32Exp x / 2 := by
    have hnat : 2 * (n : ℚ) < 2 * (f32Units x * d) + 2 ^ f32Exp x * d := mod_cast hbelow
    rw [sub_lt_iff_lt_add, div_lt_iff₀ hd']
    linarith
  have habs : |(f32Units x : ℚ) - n / d| < 2 ^ f32Exp x / 2 := abs_lt.mpr ⟨by linarith, hup⟩
  calc |f32Value x - (n : ℚ) / d / 2 ^ 150| = |(f32Units x : ℚ) - n / d| / 2 ^ 150 := by
        rw [f32Value_of_pos hs, ← sub_div, abs_div, abs_of_pos (by positivity : (0 : ℚ) < 2 ^ 150)]
    _ < 2 ^ f32Exp x / 2 / 2 ^ 150 := by gcongr
    _ = f32Ulp x / 2 := div_right_comm ..

/-- R18: a pattern so close to a ratio is its `RN32`. -/
theorem WithinHalfUlp.isRN32 {n d : Nat} {x : F32} (h : WithinHalfUlp n d x) (hd : 0 < d) (hplain : F32Plain x)
    (hs : f32Sign x = false) : IsRN32 ((n : ℚ) / d / 2 ^ 150) x :=
  isRN32_of_within_half_ulp hplain hs h.1 (h.floor_le hd) (h.abs_sub_lt hd hs)

end Sys2Proof.Machine
end

section
/-! The magnitude tables (R98, R106): the settling of O20 and O23. -/

namespace Sys2Proof.Machine

open Sys2Proof

/-! ### The default table -/

/-- R98: no product is a tie, and none is rounded up to the next exponent; evaluated over the 256 bytes. -/
theorem amag_withinHalfUlp : ∀ b : Byte, b ≠ 0 → WithinHalfUlp (b.toNat * k32Significand * 2 ^ 120) 1 (amag b) := by
  decide +kernel

/-- R98: the product `b * K32` in units of `2^-150`. -/
theorem mul_k32Value_eq (b : Byte) :
    (b.toNat : ℚ) * k32Value = ((b.toNat * k32Significand * 2 ^ 120 : ℕ) : ℚ) / (1 : ℕ) / 2 ^ 150 := by
  simp only [k32Value, k32Significand]
  push_cast
  ring

/-- Settles O20: `+0.0` for the byte 0; every other magnitude is strictly within half a unit in the last place of the
product. -/
theorem angularMagnitudeIsNearest : Obligations.AngularMagnitudeIsNearest := by
  refine fun b => ⟨?_, amag_sign b⟩
  rcases eq_or_ne b 0 with rfl | hb
  · have hzero : amag 0#8 = 0#32 := rfl
    simpa [hzero] using isRN32_zero
  · rw [mul_k32Value_eq]
    exact (amag_withinHalfUlp b hb).isRN32 one_pos (amag_plain b) (amag_sign b)

/-! ### The decimal constant exact -/

/-- R106: plain, without sign, and no product a tie or rounded up to the next exponent; evaluated over the 256 bytes. -/
theorem amagExactDecimal_facts : ∀ b : Byte,
    F32Plain (amagExactDecimal b) ∧ f32Sign (amagExactDecimal b) = false ∧
    (b ≠ 0 → WithinHalfUlp (b.toNat * angleScaleNano * 2 ^ 150) (10 ^ 9) (amagExactDecimal b)) := by decide +kernel

/-- R106: the product `b * 0.012368475` in units of `2^-150`. -/
theorem mul_angleScale_eq (b : Byte) :
    (b.toNat : ℚ) * (12368475 / 10 ^ 9) = ((b.toNat * angleScaleNano * 2 ^ 150 : ℕ) : ℚ) / (10 ^ 9 : ℕ) / 2 ^ 150 := by
  simp only [angleScaleNano]
  push_cast
  ring

/-- R106: the bytes at which the two tables differ. -/
abbrev otherRoundingBytes : List Nat :=
  [29, 58, 65, 77, 109, 116, 123, 130, 154, 161, 163, 218, 225, 232, 239, 246, 253]

/-- R106: the one table by the other, evaluated over the 256 bytes. -/
theorem amagExactDecimal_eq : ∀ b : Byte,
    amagExactDecimal b = if b.toNat ∈ otherRoundingBytes then amag b - 1 else amag b := by decide +kernel

/-- Settles O23: nearest as the default table is, from its own distance to the decimal product; and the two tables compared
byte by byte. -/
theorem otherRoundingDiffersAtSeventeenBytes : Obligations.OtherRoundingDiffersAtSeventeenBytes := by
  refine ⟨fun b => ?_, fun b hb => (amagExactDecimal_eq b).trans (if_pos hb),
    fun b hb => (amagExactDecimal_eq b).trans (if_neg hb)⟩
  obtain ⟨hplain, hsign, hwithin⟩ := amagExactDecimal_facts b
  refine ⟨?_, hsign⟩
  rcases eq_or_ne b 0 with rfl | hb
  · have hzero : amagExactDecimal 0#8 = 0#32 := rfl
    simpa [hzero] using isRN32_zero
  · rw [mul_angleScale_eq]
    exact (hwithin hb).isRN32 (by decide) hplain hsign

end Sys2Proof.Machine
end

section
/-! The angular decode (R100, R101, R103): the settling of O19 and O21. -/

namespace Sys2Proof.Machine

open Sys2Proof

/-- Settles O19: the meaning of `DECANG` itself, and the corner values of R100 and R101 evaluated. -/
theorem decangDeliversSignedMagnitude : Obligations.DecangDeliversSignedMagnitude := by
  refine fun b n s => ⟨rfl, fun ht => congrArg (angleMag · b) ht, ?_⟩
  decide

/-- R101: the flag is bit 31 of the result, and no other bit depends on it. -/
theorem angle_true_eq_xor (t : AngleTable) (b : Byte) : angle t b true = angle t b false ^^^ 0x80000000 := by
  calc angle t b true
      = (BitVec.ofBool false ^^^ BitVec.ofBool true) ++ ((angleMag t b).extractLsb' 0 31 ^^^ 0#31) := by
        rw [BitVec.xor_zero]; rfl
    _ = (BitVec.ofBool false ++ (angleMag t b).extractLsb' 0 31) ^^^ (BitVec.ofBool true ++ 0#31) :=
        BitVec.xor_append.symm

/-- R103: the flag is the sign of the number. -/
theorem f32Value_angle_amag (b : Byte) (n : Bool) :
    f32Value (angle .amag b n) = (if n then -1 else 1) * f32Value (amag b) := by
  rw [f32Value_of_pos (amag_sign b), f32Value, angle_sign, angle_units]
  rfl

/-- R98: a magnitude is within half a unit in the last place of its product, the byte 0 included. -/
theorem abs_amag_sub_le (b : Byte) : |f32Value (amag b) - b.toNat * k32Value| ≤ f32Ulp (amag b) / 2 := by
  rcases eq_or_ne b 0 with rfl | hb
  · have hunits : f32Units (amag 0#8) = 0 := rfl
    simpa [f32Value, hunits] using (half_pos (f32Ulp_pos (amag 0#8))).le
  · rw [mul_k32Value_eq]
    exact ((amag_withinHalfUlp b hb).abs_sub_lt one_pos (amag_sign b)).le

/-- R97: `K32` is within `8.7e-11` of the decimal scale. -/
theorem abs_k32Value_sub_le : |k32Value - 12368475 / 10 ^ 9| ≤ 87 / 10 ^ 12 := by
  norm_num [k32Value, abs_le]

/-- R110: the greatest exponent of the table, evaluated over the 256 bytes. -/
theorem amag_exp_le : ∀ b : Byte, f32Exp (amag b) ≤ 128 := by decide +kernel

/-- R98: so no magnitude is further than `2^127` units of `2^-150` from its product. -/
theorem amag_units_bounds (b : Byte) :
    f32Units (amag b) ≤ b.toNat * k32Significand * 2 ^ 120 + 2 ^ 127 ∧
    b.toNat * k32Significand * 2 ^ 120 ≤ f32Units (amag b) + 2 ^ 127 := by
  obtain ⟨-, -, hhi, hlo⟩ := amag_facts b
  have hexp : 2 ^ f32Exp (amag b) ≤ 2 ^ 128 := Nat.pow_le_pow_right two_pos (amag_exp_le b)
  omega

/-- R103: the products lie further apart than the two roundings can move them. -/
theorem amag_units_lt {b c : Byte} (h : b < c) : f32Units (amag b) < f32Units (amag c) := by
  have hb := (amag_units_bounds b).1
  have hc := (amag_units_bounds c).2
  have hlt : b.toNat < c.toNat := h
  simp only [k32Significand] at hb hc
  omega

/-- Settles O21: the flag is the sign bit alone; the error is that of the rounding and `b` times that of `K32`; and the
magnitudes increase. -/
theorem angularDecodeIsOddInTheFlag : Obligations.AngularDecodeIsOddInTheFlag := by
  refine ⟨angle_true_eq_xor, f32Value_angle_amag, fun b => ?_, fun b c h => ?_⟩
  · have hscale : |b.toNat * k32Value - b.toNat * (12368475 / 10 ^ 9)| ≤ b.toNat * (87 / 10 ^ 12 : ℚ) := by
      rw [← mul_sub, abs_mul, Nat.abs_cast]
      exact mul_le_mul_of_nonneg_left abs_k32Value_sub_le (Nat.cast_nonneg _)
    calc |f32Value (amag b) - b.toNat * (12368475 / 10 ^ 9)|
        ≤ |f32Value (amag b) - b.toNat * k32Value| + |b.toNat * k32Value - b.toNat * (12368475 / 10 ^ 9)| :=
          abs_sub_le ..
      _ ≤ f32Ulp (amag b) / 2 + b.toNat * (87 / 10 ^ 12) := add_le_add (abs_amag_sub_le b) hscale
      _ = 2 ^ f32Exp (amag b) / 2 ^ 151 + b.toNat * (87 / 10 ^ 12) := by rw [f32Ulp]; ring
  · exact (f32_lt_of_units_lt (amag_plain c) (amag_sign b) (amag_sign c) (amag_units_lt h)).symm

end Sys2Proof.Machine
end

section
/-! The linear decode (R99, R102): the settling of O17 and O18. -/

namespace Sys2Proof.Machine

open Sys2Proof

/-- R99: `LIN(b)` as a number. -/
theorem f32Value_lin (b : Byte) : f32Value (lin b) = b.toNat / 2 := by
  rw [f32Value_of_pos (lin_sign b), lin_units]
  push_cast
  ring

/-- R99: the pattern of a byte that is not 0. -/
theorem lin_of_ne_zero {b : Byte} (h : b ≠ 0) :
    lin b = packF32 false (bitLength b.toNat + 125) ((b.toNat <<< (24 - bitLength b.toNat)) % 2 ^ 23) :=
  if_neg fun hz => h (BitVec.eq_of_toNat_eq hz)

/-- Settles O17: the meaning of `DECLIN` itself, and `LIN` as a pattern and as a number. -/
theorem declinDeliversExactlyHalf : Obligations.DeclinDeliversExactlyHalf :=
  fun b _ => ⟨rfl, lin_plain b, lin_sign b, f32Value_lin b, lin_of_ne_zero, rfl⟩

/-- R102: the magnitudes increase with the byte. -/
theorem lin_units_lt {b c : Byte} (h : b < c) : f32Units (lin b) < f32Units (lin c) := by
  rw [lin_units, lin_units]
  exact Nat.mul_lt_mul_of_pos_right h (by positivity)

/-- Settles O18: `LIN(b)` is `b / 2`, and patterns without sign are in the order of their magnitudes. -/
theorem linearEncodingIncreases : Obligations.LinearEncodingIncreases := by
  refine ⟨fun b c h => f32_lt_of_units_lt (lin_plain c) (lin_sign b) (lin_sign c) (lin_units_lt h), fun b c h => ?_, ?_, ?_⟩
  · rw [f32Value_lin, f32Value_lin, h]
    push_cast
    ring
  · rw [f32Value_lin]; simp
  · rw [f32Value_lin]; simp

end Sys2Proof.Machine
end

section
/-! What both codec commands share (R96, R104): the settling of O22 and O24. -/

namespace Sys2Proof.Machine

open Sys2Proof

/-- R104: a magnitude of `LIN` is 0 or at least `1/2`. -/
theorem lin_units_range (b : Byte) :
    f32Units (lin b) = 0 ∨ (2 ^ 143 < f32Units (lin b) ∧ f32Units (lin b) < 2 ^ 157) := by
  have hlt := b.isLt
  rw [lin_units]
  omega

/-- R104: a magnitude of the default table is 0 or at least `K32`, up to its rounding. -/
theorem amag_units_range (b : Byte) :
    f32Units (amag b) = 0 ∨ (2 ^ 143 < f32Units (amag b) ∧ f32Units (amag b) < 2 ^ 157) := by
  rcases eq_or_ne b 0 with rfl | hb
  · exact .inl rfl
  · have hpos : 0 < b.toNat := Nat.pos_of_ne_zero fun hz => hb (BitVec.eq_of_toNat_eq hz)
    have hlt := b.isLt
    obtain ⟨hhi, hlo⟩ := amag_units_bounds b
    simp only [k32Significand] at hhi hlo
    omega

/-- R104: such a magnitude is that of a zero, or of a number between `2^-7` and `2^7`. -/
theorem f32Value_range {x : F32} (h : f32Units x = 0 ∨ (2 ^ 143 < f32Units x ∧ f32Units x < 2 ^ 157)) :
    f32Value x = 0 ∨ ((1 : ℚ) / 2 ^ 7 < |f32Value x| ∧ |f32Value x| < 2 ^ 7) := by
  rcases h with hzero | ⟨hlo, hhi⟩
  · exact .inl (by simp [f32Value, hzero])
  · have hlo' : (2 : ℚ) ^ 143 < f32Units x := mod_cast hlo
    have hhi' : (f32Units x : ℚ) < 2 ^ 157 := mod_cast hhi
    refine .inr ⟨?_, ?_⟩
    · rw [abs_f32Value, lt_div_iff₀ (by positivity)]
      exact lt_of_eq_of_lt (by norm_num) hlo'
    · rw [abs_f32Value, div_lt_iff₀ (by positivity)]
      exact lt_of_lt_of_eq hhi' (by norm_num)

/-- R100: the flag does not change the class of a result. -/
theorem angle_plain {t : AngleTable} {b : Byte} (h : F32Plain (angleMag t b)) (n : Bool) : F32Plain (angle t b n) := by
  simpa only [F32Plain, angle_exp, angle_frac] using h

/-- Settles O22: both encodings, by their magnitudes. -/
theorem codecResultsAreZeroOrNormal : Obligations.CodecResultsAreZeroOrNormal := by
  rintro b n x (rfl | rfl)
  · exact ⟨lin_plain b, f32Value_range (lin_units_range b)⟩
  · refine ⟨angle_plain (t := .amag) (amag_plain b) n, f32Value_range ?_⟩
    rw [angle_units]
    exact amag_units_range b

/-- Settles O24: the result is `LIN` of the operand, or the angular decode, which reads of the state its build alone. -/
theorem codecIsStateless : Obligations.CodecIsStateless := by
  rintro i s t (⟨b, rfl⟩ | ⟨b, n, rfl⟩) hcfg
  · exact ⟨lin b, rfl, rfl⟩
  · exact ⟨angle s.cfg.angleTable b n, rfl, by rw [hcfg]; rfl⟩

end Sys2Proof.Machine
end

section
/-! What a byte does while a frame is decoded (R113 to R120), one equation per kind of byte, and the start of the decode
(R112): the settling of O25, O26 and O27. -/

namespace Sys2Proof.Machine

open Sys2Proof

/-- R112: `FRAME` in `SYNCED` starts a decode, in a build with the frame layer and a known layout. -/
theorem exec_frame_of_synced {s : State} (hs : s.st = .synced) (hfl : s.cfg.withFrameLayer = true)
    (hlay : s.cfg.layoutKnown = true) : exec .frame s = .next (frameStarted s) :=
  (if_pos ⟨hs, hfl⟩).trans (if_pos hlay)

/-- Settles O25: `FRAME` starts the decode in `SYNCED`, and is not performed in any other state. -/
theorem frameStartsADecode : Obligations.FrameStartsADecode :=
  fun _ => ⟨exec_frame_of_synced, fun hs => exec_of_not_performed (.inl (decide_eq_false hs))⟩

/-- R36: a byte taken during a decode is a decode step. -/
theorem onEvent_rx_of_decoding {s : State} (hs : s.st = .decoding) (b : Byte) :
    onEvent (.rx b) s = decodeStep b s := by
  simp [onEvent, onRx, hs]

/-- R113: a byte of the marker pair is skipped. -/
theorem decodeStep_of_skip {b : Byte} {s : State} (hp : s.frame.ph = .skip) :
    decodeStep b s = .next (skipByte (rxByte s)) := by
  simp [decodeStep, hp]

/-- R114, R117, R119: a byte that does not complete its unit is gathered. -/
theorem decodeStep_of_incomplete {b : Byte} {s : State}
    (h : s.frame.ph = .hdr ∧ s.frame.cnt = 0 ∨ s.frame.ph = .rob ∧ s.frame.cnt < 4 ∨
      s.frame.ph = .bal ∧ s.frame.cnt = 0) : decodeStep b s = .next (gather b (rxByte s)) := by
  rcases h with ⟨hp, hc⟩ | ⟨hp, hc⟩ | ⟨hp, hc⟩
  · exact decodeStep_first_header hp hc
  · have hc' : s.frame.cnt.toNat < 4 := BitVec.lt_def.mp hc
    simp [decodeStep, hp, hc']
  · simp [decodeStep, hp, hc]

/-- R118: the fifth byte of a robot record completes it. -/
theorem decodeStep_of_robot {b : Byte} {s : State} (hp : s.frame.ph = .rob) (hc : s.frame.cnt = 4) :
    decodeStep b s = .next (robotByte b (rxByte s)) := by
  simp [decodeStep, hp, hc]

/-- R120: the second byte of a ball record completes it. -/
theorem decodeStep_of_ball {b : Byte} {s : State} (hp : s.frame.ph = .bal) (hc : s.frame.cnt = 1) :
    decodeStep b s = .next (ballByte b (rxByte s)) := by
  simp [decodeStep, hp, hc]

/-- Settles O26: the step is `skipByte`, which is not given the byte. -/
theorem skippedBytesAreNotChecked : Obligations.SkippedBytesAreNotChecked := by
  intro s b hs hp
  rw [onEvent_rx_of_decoding hs, decodeStep_of_skip hp, skipByte, rxByte_frame, hp]
  rfl

/-- R46: the element of the scratch buffer at `CNT` exists while a unit is incomplete. -/
theorem cnt_lt_of_incomplete {f : FrameLayer}
    (h : f.ph = .hdr ∧ f.cnt = 0 ∨ f.ph = .rob ∧ f.cnt < 4 ∨ f.ph = .bal ∧ f.cnt = 0) : f.cnt.toNat < 5 := by
  rcases h with ⟨-, hc⟩ | ⟨-, hc⟩ | ⟨-, hc⟩
  · simp [hc]
  · have hc' : f.cnt.toNat < 4 := BitVec.lt_def.mp hc
    omega
  · simp [hc]

/-- Settles O27: the step is `gather`, which writes the scratch buffer at `CNT` alone. -/
theorem incompleteUnitsAreOnlyGathered : Obligations.IncompleteUnitsAreOnlyGathered := by
  intro s b hs h
  refine ⟨s.frame.scr.setIfInBounds s.frame.cnt.toNat b, ?_, ?_, fun i hi => ?_⟩
  · exact (onEvent_rx_of_decoding hs b).trans (decodeStep_of_incomplete h)
  · exact Vector.getElem?_setIfInBounds_self_of_lt (cnt_lt_of_incomplete h)
  · exact Vector.getElem?_setIfInBounds_ne hi.symm

end Sys2Proof.Machine
end

section
/-! The completion of a unit (R115 to R120, R122, R124): the settling of O28, O29 and O30. -/

namespace Sys2Proof.Machine

open Sys2Proof

/-- R122, R129: with nothing to read, the snapshot is empty but for the robot count, which a build without the robot list
has as well. -/
theorem snapshotOf_of_nothing_to_read {s : State} (hr : robotsToRead s = 0) (hb : s.frame.nb.toNat = 0) :
    snapshotOf s = { nr := s.frame.nr, nb := 0, rob := [], bal := [] } := by
  have hnb : s.frame.nb = 0 := BitVec.eq_of_toNat_eq hb
  cases hl : s.cfg.withRobotList with
  | true =>
    have hnr : s.frame.nr.toNat = 0 := by simpa [robotsToRead, hl] using hr
    simp [snapshotOf, hnr, hnb]
  | false => simp [snapshotOf, hl, hnb]

/-- Settles O28: the header byte stores the clamped counts; the robots, the balls or the empty publish come next. -/
theorem headerCountsAreClamped : Obligations.HeaderCountsAreClamped := by
  intro s b hs hp hc
  refine ⟨headerByte b (rxByte s), (onEvent_rx_of_decoding hs b).trans (decodeStep_second_header hp hc), ?_⟩
  rcases headerByte_cases b (rxByte s) with ⟨hr, he⟩ | ⟨hr, he⟩
  · simpa [he, hs, maxRobots] using robotsToRead_pos hr
  · rcases afterRobots_cases (storeHeader b (rxByte s)) with ⟨hb, ha⟩ | ⟨hb, ha⟩
    · simpa [he, ha, hs, robotsToRead, maxRobots] using And.intro hr hb
    · have hnb : clamp b s.cfg.maxBalls = 0 := BitVec.eq_of_toNat_eq hb
      have hzero : min b.toNat s.cfg.maxBalls = 0 := (clamp_toNat b _).symm.trans hb
      simpa [he, ha, hp, snapshotOf_of_nothing_to_read hr hb, hnb, hzero, robotsToRead, maxRobots] using hr

/-- R118, R120: `IDX + 1` does not wrap where it is below a count. -/
theorem toNat_add_one_of_lt {i n : Byte} (h : i.toNat + 1 < n.toNat) : (i + 1).toNat = i.toNat + 1 := by bv_omega

/-- R122: a publish leaves the counts and the lists it copies. -/
theorem snapshotOf_finish (s : State) : snapshotOf (finish s) = snapshotOf s := rfl

/-- R118: whatever comes after it, a completed robot record is stored at `IDX`. -/
theorem robotByte_rob (b : Byte) (s : State) :
    (robotByte b s).frame.rob = s.frame.rob.setIfInBounds s.frame.idx.toNat (robotRecord b s) := by
  rcases robotByte_cases b s with ⟨-, he⟩ | ⟨-, he⟩
  · rw [he]; rfl
  · rcases afterRobots_cases (storeRobot (robotRecord b s) s) with ⟨-, ha⟩ | ⟨-, ha⟩ <;> rw [he, ha] <;> rfl

/-- R120: whatever comes after it, a completed ball record is stored at `IDX`. -/
theorem ballByte_bal (b : Byte) (s : State) :
    (ballByte b s).frame.bal = s.frame.bal.set s.frame.idx.toNat (ballRecord b s) := by
  rcases ballByte_cases b s with ⟨-, he⟩ | ⟨-, he⟩ <;> rw [he] <;> rfl

/-- R68, R69: with the default layout the heading of a record is bit 7 and the seven bits below it of its second byte. -/
theorem robotRecord_of_signBit7 {s : State} (b : Byte) (hl : s.cfg.headingLayout = .signBit7) :
    robotRecord b s =
      { id := s.frame.scr[0],
        heading := angle s.cfg.angleTable ((s.frame.scr[1].extractLsb' 0 7).setWidth 8) (s.frame.scr[1].getLsbD 7),
        x := lin s.frame.scr[3], y := lin b } := by
  rw [robotRecord, hl]; rfl

/-- Settles O29: the record is decoded by `robotRecord` and stored at `IDX` (`robotByte_rob`); the next robot, the balls or
the publish come next. -/
theorem robotRecordIsDecodedAndStored : Obligations.RobotRecordIsDecodedAndStored := by
  intro s b hs hp hc
  have hrob := robotByte_rob b (rxByte s)
  have hstored (h : s.frame.idx.toNat < 10) :
      (robotByte b (rxByte s)).frame.rob[s.frame.idx.toNat]? = some (robotRecord b s) := by
    rw [hrob]; exact Vector.getElem?_setIfInBounds_self_of_lt h
  refine ⟨robotByte b (rxByte s), (onEvent_rx_of_decoding hs b).trans (decodeStep_of_robot hp hc), hstored,
    fun h hl => (hstored h).trans (congrArg some (robotRecord_of_signBit7 b hl)), fun i hi => ?_, ?_⟩
  · rw [hrob]; exact Vector.getElem?_setIfInBounds_ne hi.symm
  rcases robotByte_cases b (rxByte s) with ⟨hi, he⟩ | ⟨hi, he⟩
  · rw [rxByte_frame] at hi
    simpa [he, hs, hi, -BitVec.toNat_add] using toNat_add_one_of_lt hi
  · rcases afterRobots_cases (storeRobot (robotRecord b (rxByte s)) (rxByte s)) with ⟨hb, ha⟩ | ⟨hb, ha⟩
    · simpa [he, ha, hs] using And.intro hi hb
    · simpa [he, ha, hp, snapshotOf_finish] using And.intro hi hb

/-- Settles O30: the record is decoded by `ballRecord` and stored at `IDX` (`ballByte_bal`); the next ball or the publish
comes next. -/
theorem ballRecordIsDecodedAndStored : Obligations.BallRecordIsDecodedAndStored := by
  intro s b hs hp hc
  have hbal := ballByte_bal b (rxByte s)
  refine ⟨ballByte b (rxByte s), (onEvent_rx_of_decoding hs b).trans (decodeStep_of_ball hp hc), fun h => ?_,
    fun i hi => ?_, ?_⟩
  · rw [hbal]; exact List.getElem?_set_self h
  · rw [hbal]; exact List.getElem?_set_ne hi.symm
  rcases ballByte_cases b (rxByte s) with ⟨hi, he⟩ | ⟨hi, he⟩
  · rw [rxByte_frame] at hi
    simpa [he, hs, hi, -BitVec.toNat_add] using toNat_add_one_of_lt hi
  · simpa [he, hp, snapshotOf_finish] using hi

end Sys2Proof.Machine
end

section
/-! The snapshot and the control state (R122 to R124): the settling of O31 and O49. -/

namespace Sys2Proof.Machine

open Sys2Proof

/-- R122: but for `RESET`, a step that does not report `ev_frame` leaves the published snapshot. -/
theorem Effect.pub_eq {e : Event} {s t : State} (he : Effect e s t) (hev : t.out.evFrame = false)
    (hf : t.fresh = s.fresh) : t.frame.pub = s.frame.pub ∧ t.frame.pubValid = s.frame.pubValid ∧
      t.ghost.pubCount = s.ghost.pubCount := by
  cases he with
  | headerEmpty | robotDone | ballDone => cases hev
  | reset => exact absurd hf (Nat.succ_ne_self _)
  | _ => exact ⟨rfl, rfl, rfl⟩

/-- R122, R124: a step that reports `ev_frame` is a publish of the counts and lists as it leaves them. -/
theorem Effect.published {e : Event} {s t : State} (he : Effect e s t) (hev : t.out.evFrame = true) :
    t.frame.js = false ∧ t.frame.pubValid = true ∧ t.ghost.pubCount = s.ghost.pubCount + 1 ∧
      t.frame.pub = snapshotOf t := by
  cases he with
  | headerEmpty | robotDone | ballDone => exact ⟨rfl, rfl, rfl, rfl⟩
  | _ => cases hev

/-- Settles O31: the two kinds of step, told apart by `ev_frame`, which is the output of a step from `DECODING` to `SYNCED`
alone (`Effect.evFrame_iff`). -/
theorem snapshotChangesOnlyByAWholePublish : Obligations.SnapshotChangesOnlyByAWholePublish := by
  intro s t h
  obtain ⟨e, v, -, he⟩ := step_effect h
  refine ⟨he.pub_eq, fun hev => ?_⟩
  obtain ⟨hs, ht⟩ := he.evFrame_iff.mp hev
  obtain ⟨hjs, hvalid, hcount, hpub⟩ := he.published hev
  exact ⟨hs, ht, hjs, hvalid, hcount, by rw [hpub]; rfl, by rw [hpub]; rfl, by rw [hpub]; rfl, by rw [hpub]; rfl⟩

/-- Settles O49: every effect of an event leaves `ST` or makes a listed transition (`Effect.transition`). -/
theorem onlyTheListedTransitions : Obligations.OnlyTheListedTransitions :=
  fun _ _ _ h hne => (onEvent_effect h).transition.resolve_left hne

end Sys2Proof.Machine
end

section
/-! A frame decode against the whole-frame view (R127): what the settling of O33 needs of one byte. `FrameAt c js t k f` says
where a decode of the bytes `t` stands after the first `k` of them: at a unit of the frame, with the bytes of the unit gathered
and the entities before it stored. Every decode step moves it on by one byte or, with the last byte, publishes the view. -/

namespace Sys2Proof.Machine

open Sys2Proof

/-! ### Where a decode stands -/

section
variable {c : Config} {js : Bool} {t : List Byte} {k n : Nat} {b : Byte} {f : FrameLayer} {s v : State}

/-- R115: `NR` and `NB` are the counts of the view. -/
def HeaderStored (c : Config) (js : Bool) (t : List Byte) (f : FrameLayer) : Prop :=
  f.nr.toNat = formNr js t ∧ f.nb.toNat = formNb c js t

/-- R118: the first `n` robots of the view are in `ROB`. -/
def RobotsStored (c : Config) (js : Bool) (t : List Byte) (n : Nat) (f : FrameLayer) : Prop :=
  ∀ i < n, f.rob[i]? = some (formRobot c js t i)

/-- R120: the first `n` balls of the view are in `BAL`. -/
def BallsStored (c : Config) (js : Bool) (t : List Byte) (n : Nat) (f : FrameLayer) : Prop :=
  ∀ i < n, f.bal[i]? = some (formBall c js t i)

/-- R113 to R120, R127: the unit being read begins at a place of `t`, and all before that place is stored. -/
inductive UnitAt (c : Config) (js : Bool) (t : List Byte) (f : FrameLayer) : Nat → Prop where
  | skip (hp : f.ph = .skip) (hjs : js = false) : UnitAt c js t f 0
  | hdr (hp : f.ph = .hdr) : UnitAt c js t f (formOffset js)
  | rob (hp : f.ph = .rob) (hh : HeaderStored c js t f) (hr : RobotsStored c js t f.idx.toNat f) :
      UnitAt c js t f (formOffset js + 2 + 5 * f.idx.toNat)
  | bal (hp : f.ph = .bal) (hh : HeaderStored c js t f) (hr : RobotsStored c js t (formRobots c js t) f)
      (hb : BallsStored c js t f.idx.toNat f) :
      UnitAt c js t f (formOffset js + 2 + 5 * formRobots c js t + 2 * f.idx.toNat)

/-- R46, R127: after `k` bytes of `t`, `CNT` bytes of the unit are taken, and gathered but in the skip phase. -/
def FrameAt (c : Config) (js : Bool) (t : List Byte) (k : Nat) (f : FrameLayer) : Prop :=
  ∃ u, UnitAt c js t f u ∧ k = u + f.cnt.toNat ∧
    (f.ph ≠ .skip → ∀ i < f.cnt.toNat, f.scr[i]? = some (t.getD (u + i) 0))

/-- R115: the records the machine reads are the records of the view. -/
theorem robotsToRead_eq (h : HeaderStored s.cfg js t s.frame) : robotsToRead s = formRobots s.cfg js t := by
  rw [robotsToRead, formRobots, h.1]

/-- R118: the robots that can be stored are those of the view. -/
theorem formRobots_of_robotList (hl : c.withRobotList = true) : formRobots c js t = formNr js t := if_pos hl

/-- A unit that begins has no byte gathered. -/
theorem frameAt_of_unitAt (h : UnitAt c js t f k) (hc : f.cnt = 0) : FrameAt c js t k f :=
  ⟨k, h, by simp [hc], fun _ i hi => by simp [hc] at hi⟩

/-- R127: a decode in progress lacks at least one byte of the frame. -/
theorem FrameAt.lt_formLength (h : FrameAt c js t k f) (hinv : PhaseInv c f) : k < formLength c js t := by
  obtain ⟨u, hu, rfl, -⟩ := h
  unfold formLength
  cases hu with
  | skip hp hjs =>
    have hcnt : f.cnt.toNat ≤ 1 := by simpa [hp] using hinv.cnt_le
    have hoff : formOffset js = 2 := by rw [hjs]; rfl
    omega
  | hdr hp =>
    have hcnt : f.cnt.toNat ≤ 1 := by simpa [hp] using hinv.cnt_le
    omega
  | rob hp hh =>
    have hcnt : f.cnt.toNat ≤ 4 := by simpa [hp] using hinv.cnt_le
    have hidx : f.idx.toNat < formRobots c js t := by
      rw [formRobots_of_robotList (hinv.withRobotList hp), ← hh.1]
      exact hinv.idx_lt_nr hp
    omega
  | bal hp hh =>
    have hcnt : f.cnt.toNat ≤ 1 := by simpa [hp] using hinv.cnt_le
    have hidx : f.idx.toNat < formNb c js t := by
      rw [← hh.2]
      exact hinv.idx_lt_nb hp
    omega

/-- The place of `t` a decode has come to in the header. -/
theorem FrameAt.place_in_hdr (h : FrameAt c js t k f) (hp : f.ph = .hdr) :
    k = formOffset js + f.cnt.toNat ∧ ∀ i < f.cnt.toNat, f.scr[i]? = some (t.getD (formOffset js + i) 0) := by
  obtain ⟨u, hu, hk, hscr⟩ := h
  cases hu with
  | hdr => exact ⟨hk, hscr (by simp [hp])⟩
  | skip hp' | rob hp' | bal hp' => cases hp.symm.trans hp'

/-- The place of `t` a decode has come to in a robot record, and what is stored before the record. -/
theorem FrameAt.place_in_rob (h : FrameAt c js t k f) (hp : f.ph = .rob) :
    k = formOffset js + 2 + 5 * f.idx.toNat + f.cnt.toNat ∧
    (∀ i < f.cnt.toNat, f.scr[i]? = some (t.getD (formOffset js + 2 + 5 * f.idx.toNat + i) 0)) ∧
    HeaderStored c js t f ∧ RobotsStored c js t f.idx.toNat f := by
  obtain ⟨u, hu, hk, hscr⟩ := h
  cases hu with
  | rob _ hh hr => exact ⟨hk, hscr (by simp [hp]), hh, hr⟩
  | skip hp' | hdr hp' | bal hp' => cases hp.symm.trans hp'

/-- The place of `t` a decode has come to in a ball record, and what is stored before the record. -/
theorem FrameAt.place_in_bal (h : FrameAt c js t k f) (hp : f.ph = .bal) :
    k = formOffset js + 2 + 5 * formRobots c js t + 2 * f.idx.toNat + f.cnt.toNat ∧
    (∀ i < f.cnt.toNat,
      f.scr[i]? = some (t.getD (formOffset js + 2 + 5 * formRobots c js t + 2 * f.idx.toNat + i) 0)) ∧
    HeaderStored c js t f ∧ RobotsStored c js t (formRobots c js t) f ∧ BallsStored c js t f.idx.toNat f := by
  obtain ⟨u, hu, hk, hscr⟩ := h
  cases hu with
  | bal _ hh hr hb => exact ⟨hk, hscr (by simp [hp]), hh, hr, hb⟩
  | skip hp' | hdr hp' | rob hp' => cases hp.symm.trans hp'

/-! ### A byte taken -/

/-- R113: a skipped byte is one of the two before the header. -/
theorem FrameAt.frameAt_skipByte (h : FrameAt s.cfg js t k s.frame) (hp : s.frame.ph = .skip)
    (hinv : PhaseInv s.cfg s.frame) : FrameAt s.cfg js t (k + 1) (skipByte s).frame := by
  obtain ⟨u, hu, rfl, -⟩ := h
  cases hu with
  | hdr hp' | rob hp' | bal hp' => cases hp.symm.trans hp'
  | skip _ hjs =>
    by_cases hc : s.frame.cnt = 0
    · exact ⟨0, .skip (by simp [hc, hp]) hjs, by simp [hc], by simp [hc, hp]⟩
    · have hone : s.frame.cnt.toNat = 1 := by
        have hle : s.frame.cnt.toNat ≤ 1 := by simpa [hp] using hinv.cnt_le
        have hne : s.frame.cnt.toNat ≠ 0 := fun h0 => hc (BitVec.eq_of_toNat_eq h0)
        omega
      have hoff : 0 + s.frame.cnt.toNat + 1 = formOffset js := by simp [hone, hjs, formOffset]
      rw [hoff]
      exact frameAt_of_unitAt (.hdr (if_neg hc)) (if_neg hc)

/-- Neither the place of the unit nor what is stored before it depends on the bytes gathered. -/
theorem UnitAt.unitAt_gather (h : UnitAt s.cfg js t s.frame n) (b : Byte) : UnitAt s.cfg js t (gather b s).frame n := by
  cases h with
  | skip hp hjs => exact .skip hp hjs
  | hdr hp => exact .hdr hp
  | rob hp hh hr => exact .rob (f := (gather b s).frame) hp hh hr
  | bal hp hh hr hb => exact .bal (f := (gather b s).frame) hp hh hr hb

/-- R46: a gathered byte is the unit's next one. -/
theorem FrameAt.frameAt_gather (h : FrameAt s.cfg js t k s.frame) (hb : t[k]? = some b) (hc : s.frame.cnt.toNat < 4) :
    FrameAt s.cfg js t (k + 1) (gather b s).frame := by
  obtain ⟨u, hu, rfl, hscr⟩ := h
  have hcnt : (gather b s).frame.cnt.toNat = s.frame.cnt.toNat + 1 := by
    change (s.frame.cnt + 1).toNat = _
    bv_omega
  refine ⟨u, hu.unitAt_gather b, by rw [hcnt, Nat.add_assoc], fun hp i hi => ?_⟩
  rw [hcnt] at hi
  rcases Nat.lt_succ_iff_lt_or_eq.mp hi with hlt | rfl
  · calc (s.frame.scr.setIfInBounds s.frame.cnt.toNat b)[i]? = s.frame.scr[i]? :=
          Vector.getElem?_setIfInBounds_ne (Nat.ne_of_gt hlt)
      _ = some (t.getD (u + i) 0) := hscr hp i hlt
  · calc (s.frame.scr.setIfInBounds s.frame.cnt.toNat b)[s.frame.cnt.toNat]? = some b :=
          Vector.getElem?_setIfInBounds_self_of_lt (by omega)
      _ = some (t.getD (u + s.frame.cnt.toNat) 0) := by simp [hb]

/-- R115: the second header byte stores the counts of the view. -/
theorem FrameAt.headerStored (h : FrameAt s.cfg js t k s.frame) (hb : t[k]? = some b) (hp : s.frame.ph = .hdr)
    (hc : s.frame.cnt = 1) :
    k + 1 = formOffset js + 2 ∧ HeaderStored s.cfg js t (storeHeader b s).frame := by
  obtain ⟨rfl, hscr⟩ := h.place_in_hdr hp
  simp only [hc] at hb hscr ⊢
  have h0 : s.frame.scr[0] = t.getD (formOffset js) 0 := by simpa using hscr 0 (by decide)
  have h1 : b = t.getD (formOffset js + 1) 0 := by simpa using congrArg (·.getD 0) hb.symm
  exact ⟨rfl, by simp [formNr, h0], by simp [formNb, h1]⟩

/-- R118: the last byte of a robot record stores the robot of the view. -/
theorem FrameAt.robotsStored (h : FrameAt s.cfg js t k s.frame) (hb : t[k]? = some b) (hp : s.frame.ph = .rob)
    (hc : s.frame.cnt = 4) (hi : s.frame.idx.toNat < maxRobots) :
    k + 1 = formOffset js + 2 + 5 * (s.frame.idx.toNat + 1) ∧ HeaderStored s.cfg js t s.frame ∧
      RobotsStored s.cfg js t (s.frame.idx.toNat + 1) (storeRobot (robotRecord b s) s).frame := by
  obtain ⟨rfl, hscr, hh, hr⟩ := h.place_in_rob hp
  simp only [hc] at hb hscr ⊢
  have hrec : robotRecord b s = formRobot s.cfg js t s.frame.idx.toNat := by
    have h0 := hscr 0 (by decide)
    have h1 := hscr 1 (by decide)
    have h2 := hscr 2 (by decide)
    have h3 := hscr 3 (by decide)
    simp at h0 h1 h2 h3 hb
    simp [robotRecord, formRobot, decodeRobot, h0, h1, h2, h3, hb]
  refine ⟨by simp; omega, hh, fun i hlt => ?_⟩
  rcases Nat.lt_succ_iff_lt_or_eq.mp hlt with hlt | rfl
  · exact (Vector.getElem?_setIfInBounds_ne (Nat.ne_of_gt hlt)).trans (hr i hlt)
  · rw [hrec]; exact Vector.getElem?_setIfInBounds_self_of_lt hi

/-- R120: the last byte of a ball record stores the ball of the view. -/
theorem FrameAt.ballsStored (h : FrameAt s.cfg js t k s.frame) (hb : t[k]? = some b) (hp : s.frame.ph = .bal)
    (hc : s.frame.cnt = 1) (hi : s.frame.idx.toNat < s.frame.bal.length) :
    k + 1 = formOffset js + 2 + 5 * formRobots s.cfg js t + 2 * (s.frame.idx.toNat + 1) ∧
      HeaderStored s.cfg js t s.frame ∧ RobotsStored s.cfg js t (formRobots s.cfg js t) s.frame ∧
      BallsStored s.cfg js t (s.frame.idx.toNat + 1) (storeBall (ballRecord b s) s).frame := by
  obtain ⟨rfl, hscr, hh, hr, hbal⟩ := h.place_in_bal hp
  simp only [hc] at hb hscr ⊢
  have hrec : ballRecord b s = formBall s.cfg js t s.frame.idx.toNat := by
    have h0 := hscr 0 (by decide)
    simp at h0 hb
    simp [ballRecord, formBall, decodeBall, h0, hb]
  refine ⟨by simp; omega, hh, hr, fun i hlt => ?_⟩
  rcases Nat.lt_succ_iff_lt_or_eq.mp hlt with hlt | rfl
  · exact (List.getElem?_set_ne (Nat.ne_of_gt hlt)).trans (hbal i hlt)
  · rw [hrec]; exact List.getElem?_set_self hi

/-- A list whose first elements are given by a function begins with the values of that function. -/
theorem take_eq_map_range {α : Type} {l : List α} {g : Nat → α} (h : ∀ i < n, l[i]? = some (g i)) :
    l.take n = (List.range n).map g := by
  refine List.ext_getElem? fun i => ?_
  by_cases hi : i < n
  · simp [hi, h i hi]
  · simp [hi]

/-- R122, R127: with everything stored, a publish is of the snapshot of the view. -/
theorem snapshotOf_eq_formSnapshot (hh : HeaderStored s.cfg js t s.frame)
    (hr : RobotsStored s.cfg js t (formRobots s.cfg js t) s.frame)
    (hb : BallsStored s.cfg js t (formNb s.cfg js t) s.frame) : snapshotOf s = formSnapshot s.cfg js t := by
  obtain ⟨hnr, hnb⟩ := hh
  have hrob : (if s.cfg.withRobotList then s.frame.rob.toList.take s.frame.nr.toNat else []) =
      (List.range (formRobots s.cfg js t)).map (formRobot s.cfg js t) := by
    cases hl : s.cfg.withRobotList with
    | true =>
      rw [formRobots_of_robotList hl] at hr ⊢
      rw [if_pos rfl, hnr]
      exact take_eq_map_range fun i hi => by simpa using hr i hi
    | false => simp [formRobots, hl]
  have hbal : s.frame.bal.take s.frame.nb.toNat =
      (List.range (formNb s.cfg js t)).map (formBall s.cfg js t) := by
    rw [hnb]
    exact take_eq_map_range hb
  rw [snapshotOf, formSnapshot, hrob, hbal, ← hnr, ← hnb, BitVec.ofNat_toNat, BitVec.ofNat_toNat, BitVec.setWidth_eq,
    BitVec.setWidth_eq]

/-! ### The steps of a decode -/

/-- R127: the decode of `t` has come to its byte `k` and goes on there, or is complete with it and has published the view. -/
def DecodedTo (c : Config) (js : Bool) (t : List Byte) (k : Nat) (v : State) : Prop :=
  (v.st = .decoding ∧ FrameAt c js t k v.frame) ∨
  (v.st = .synced ∧ k = formLength c js t ∧ v.frame.pub = formSnapshot c js t)

/-- R118: a robot record begins after the robots that are stored. -/
theorem decodedTo_goTo_rob {i : Byte} (hs : s.st = .decoding) (hh : HeaderStored s.cfg js t s.frame)
    (hr : RobotsStored s.cfg js t i.toNat s.frame) (hk : k = formOffset js + 2 + 5 * i.toNat) :
    DecodedTo s.cfg js t k (goTo .rob i s) := by
  rw [hk]
  exact .inl ⟨hs, frameAt_of_unitAt (.rob rfl hh hr) rfl⟩

/-- R120: a ball record begins after the balls that are stored. -/
theorem decodedTo_goTo_bal {i : Byte} (hs : s.st = .decoding) (hh : HeaderStored s.cfg js t s.frame)
    (hr : RobotsStored s.cfg js t (formRobots s.cfg js t) s.frame) (hb : BallsStored s.cfg js t i.toNat s.frame)
    (hk : k = formOffset js + 2 + 5 * formRobots s.cfg js t + 2 * i.toNat) :
    DecodedTo s.cfg js t k (goTo .bal i s) := by
  rw [hk]
  exact .inl ⟨hs, frameAt_of_unitAt (.bal rfl hh hr hb) rfl⟩

/-- R122, R124: with everything stored the decode is complete. -/
theorem decodedTo_finish (hh : HeaderStored s.cfg js t s.frame)
    (hr : RobotsStored s.cfg js t (formRobots s.cfg js t) s.frame)
    (hb : BallsStored s.cfg js t (formNb s.cfg js t) s.frame) (hk : k = formLength s.cfg js t) :
    DecodedTo s.cfg js t k (finish s) :=
  .inr ⟨rfl, hk, snapshotOf_eq_formSnapshot hh hr hb⟩

/-- R115, R118: with the robots stored, the balls come next, or there are none. -/
theorem decodedTo_afterRobots (hs : s.st = .decoding) (hh : HeaderStored s.cfg js t s.frame)
    (hr : RobotsStored s.cfg js t (formRobots s.cfg js t) s.frame)
    (hk : k = formOffset js + 2 + 5 * formRobots s.cfg js t) : DecodedTo s.cfg js t k (afterRobots s) := by
  rcases afterRobots_cases s with ⟨-, he⟩ | ⟨hb, he⟩ <;> rw [he]
  · exact decodedTo_goTo_bal hs hh hr nofun hk
  · have hnone : formNb s.cfg js t = 0 := hh.2.symm.trans hb
    exact decodedTo_finish hh hr (by rw [hnone]; nofun) (by simp [hk, formLength, hnone])

/-- R115: after the header come the robots, or what comes after them. -/
theorem FrameAt.decodedTo_headerByte (h : FrameAt s.cfg js t k s.frame) (hs : s.st = .decoding) (hb : t[k]? = some b)
    (hp : s.frame.ph = .hdr) (hc : s.frame.cnt = 1) : DecodedTo s.cfg js t (k + 1) (headerByte b s) := by
  obtain ⟨hk, hh⟩ := h.headerStored hb hp hc
  rcases headerByte_cases b s with ⟨-, he⟩ | ⟨hr, he⟩ <;> rw [he]
  · exact decodedTo_goTo_rob hs hh nofun hk
  · have hnone : formRobots s.cfg js t = 0 := (robotsToRead_eq hh).symm.trans hr
    refine decodedTo_afterRobots (s := storeHeader b s) hs hh ?_ ?_
    · change RobotsStored s.cfg js t (formRobots s.cfg js t) _
      rw [hnone]; nofun
    · change k + 1 = formOffset js + 2 + 5 * formRobots s.cfg js t
      rw [hk, hnone]

/-- R118: after a robot comes the next one, or, after the last of the view, what comes after the robots. -/
theorem FrameAt.decodedTo_robotByte (h : FrameAt s.cfg js t k s.frame) (hs : s.st = .decoding) (hb : t[k]? = some b)
    (hp : s.frame.ph = .rob) (hc : s.frame.cnt = 4) (hinv : PhaseInv s.cfg s.frame) :
    DecodedTo s.cfg js t (k + 1) (robotByte b s) := by
  have hidx : s.frame.idx.toNat < maxRobots :=
    lt_of_lt_of_le (hinv.idx_lt_nr hp) (hinv.countsBounded (.inl hp)).1
  obtain ⟨hk, hh, hr⟩ := h.robotsStored hb hp hc hidx
  rcases robotByte_cases b s with ⟨hi, he⟩ | ⟨hi, he⟩ <;> rw [he]
  · rw [← toNat_add_one_of_lt hi] at hk hr
    exact decodedTo_goTo_rob (s := storeRobot (robotRecord b s) s) hs hh hr hk
  · have hlast : s.frame.idx.toNat + 1 = formRobots s.cfg js t := by
      rw [formRobots_of_robotList (hinv.withRobotList hp), ← hh.1]
      exact le_antisymm (hinv.idx_lt_nr hp) hi
    rw [hlast] at hk hr
    exact decodedTo_afterRobots (s := storeRobot (robotRecord b s) s) hs hh hr hk

/-- R120: after a ball comes the next one, or, after the last of the view, the publish. -/
theorem FrameAt.decodedTo_ballByte (h : FrameAt s.cfg js t k s.frame) (hs : s.st = .decoding) (hb : t[k]? = some b)
    (hp : s.frame.ph = .bal) (hc : s.frame.cnt = 1) (hinv : PhaseInv s.cfg s.frame) (hsize : BallsSized s) :
    DecodedTo s.cfg js t (k + 1) (ballByte b s) := by
  have hidx : s.frame.idx.toNat < s.frame.bal.length :=
    lt_of_lt_of_le (hinv.idx_lt_nb hp) (hsize.symm ▸ (hinv.countsBounded (.inr hp)).2)
  obtain ⟨hk, hh, hr, hbs⟩ := h.ballsStored hb hp hc hidx
  rcases ballByte_cases b s with ⟨hi, he⟩ | ⟨hi, he⟩ <;> rw [he]
  · rw [← toNat_add_one_of_lt hi] at hk hbs
    exact decodedTo_goTo_bal (s := storeBall (ballRecord b s) s) hs hh hr hbs hk
  · have hlast : s.frame.idx.toNat + 1 = formNb s.cfg js t := by
      rw [← hh.2]
      exact le_antisymm (hinv.idx_lt_nb hp) hi
    rw [hlast] at hk hbs
    exact decodedTo_finish (s := storeBall (ballRecord b s) s) hh hr hbs hk

/-- R113 to R122, R127: a byte taken moves the decode on by one byte of `t`. -/
theorem FrameAt.decodedTo_decodeStep (h : FrameAt s.cfg js t k s.frame) (hs : s.st = .decoding) (hb : t[k]? = some b)
    (hinv : PhaseInv s.cfg s.frame) (hsize : BallsSized s) :
    ∃ v, decodeStep b s = .next v ∧ DecodedTo s.cfg js t (k + 1) v := by
  rcases decodeStep_cases b s with ⟨hp, he⟩ | ⟨hp, he⟩ | ⟨hp, hc, he⟩ | ⟨hp, hc, he⟩ | ⟨hp, hc, he⟩ | ⟨h4, h1, he⟩
  · exact ⟨_, he, .inl ⟨hs, FrameAt.frameAt_skipByte (s := rxByte s) h hp hinv⟩⟩
  · have hc : s.frame.cnt.toNat < 4 := by
      rcases hp with ⟨-, hc⟩ | ⟨-, hc⟩ | ⟨-, hc⟩ <;> simp [hc]
    exact ⟨_, he, .inl ⟨hs, FrameAt.frameAt_gather (s := rxByte s) h hb hc⟩⟩
  · exact ⟨_, he, FrameAt.decodedTo_headerByte (s := rxByte s) h hs hb hp hc⟩
  · exact ⟨_, he, FrameAt.decodedTo_robotByte (s := rxByte s) h hs hb hp hc hinv⟩
  · exact ⟨_, he, FrameAt.decodedTo_ballByte (s := rxByte s) h hs hb hp hc hinv hsize⟩
  · have hcnt := hinv.cnt_le
    split at hcnt
    · next hp => exact absurd hcnt (Nat.not_le_of_lt (h4 hp))
    · next hp => exact absurd hcnt (Nat.not_le_of_lt (h1 hp))

end

end Sys2Proof.Machine
end

section
/-! A frame decode from `FRAME` to its last byte (R127): the settling of O33. `DecodeOver s t k u` says all that the decode
started in `s` does while it takes the first `k` bytes of `t`, and `DecodeDone` what its last byte does; `runs_decode` is the
induction over the turns, with any commands but `ABORT` among them. -/

namespace Sys2Proof.Machine

open Sys2Proof

/-! ### One byte of a decode -/

/-- R154: an event does not change the build. -/
theorem Effect.cfg_eq {e : Event} {s t : State} (he : Effect e s t) : t.cfg = s.cfg := by
  cases he <;> rfl

/-- A byte taken draws no free values. -/
theorem Effect.fresh_of_rx {b : Byte} {s t : State} (he : Effect (.rx b) s t) : t.fresh = s.fresh := by
  cases he <;> rfl

/-- R127: the decode that `FRAME` started in `s` is on in `u`, with `k` bytes of `t` taken and nothing published. -/
structure DecodeOver (s : State) (t : List Byte) (k : Nat) (u : State) : Prop where
  st       : u.st = .decoding
  cfg      : u.cfg = s.cfg
  place    : FrameAt u.cfg s.frame.js t k u.frame
  inv      : DecodeInv u.cfg u.frame
  balls    : BallsSized u
  pub      : u.frame.pub = s.frame.pub
  pubValid : u.frame.pubValid = s.frame.pubValid
  pubCount : u.ghost.pubCount = s.ghost.pubCount
  consumed : u.ghost.consumed = s.ghost.consumed + k

/-- R127: the decode that `FRAME` started in `s` took `k` bytes and is complete in `u`, with `p` published. -/
structure DecodeDone (s : State) (p : Snapshot) (k : Nat) (u : State) : Prop where
  st       : u.st = .synced
  js       : u.frame.js = false
  pubValid : u.frame.pubValid = true
  pub      : u.frame.pub = p
  pubCount : u.ghost.pubCount = s.ghost.pubCount + 1
  consumed : u.ghost.consumed = s.ghost.consumed + k
  evFrame  : u.out.evFrame = true

section
variable {s u : State} {t : List Byte} {k : Nat} {b : Byte}

/-- R112: `FRAME` starts a decode at the header or, with `JS = 0`, at the marker pair before it. -/
theorem decodeOver_frameStarted (hfl : s.cfg.withFrameLayer = true) (hlay : s.cfg.layoutKnown = true)
    (hsize : BallsSized s) (t : List Byte) (v : Env) : DecodeOver s t 0 (frameStarted (s.withEnv v)) where
  st := rfl
  cfg := rfl
  place := by
    refine frameAt_of_unitAt ?_ rfl
    cases hjs : s.frame.js with
    | true => exact .hdr (by simp [hjs])
    | false => exact .skip (by simp [hjs]) rfl
  inv := ⟨hfl, hlay, phaseInv_frameStarted _⟩
  balls := hsize
  pub := rfl
  pubValid := rfl
  pubCount := rfl
  consumed := rfl

/-- R22: the environment is no part of a decode. -/
theorem DecodeOver.withEnv (h : DecodeOver s t k u) (v : Env) : DecodeOver s t k (u.withEnv v) :=
  ⟨h.st, h.cfg, h.place, h.inv, h.balls, h.pub, h.pubValid, h.pubCount, h.consumed⟩

/-- R40: nor are the outputs. -/
theorem DecodeOver.withOut (h : DecodeOver s t k u) (o : Outputs) : DecodeOver s t k (u.withOut o) :=
  ⟨h.st, h.cfg, h.place, h.inv, h.balls, h.pub, h.pubValid, h.pubCount, h.consumed⟩

/-- R127: with a byte taken the decode is on, before the end of the frame, or it is complete at the end of the frame. -/
theorem DecodeOver.decodeStep_cases (h : DecodeOver s t k u) (hb : t[k]? = some b) :
    ∃ v, decodeStep b u = .next v ∧ v.env = u.env ∧
      (k + 1 < formLength s.cfg s.frame.js t ∧ DecodeOver s t (k + 1) v ∨
        k + 1 = formLength s.cfg s.frame.js t ∧ DecodeDone s (formSnapshot s.cfg s.frame.js t) (k + 1) v) := by
  obtain ⟨v, hv, hto⟩ := h.place.decodedTo_decodeStep h.st hb h.inv.phase h.balls
  have he := decodeStep_effect h.st hv
  have hcons : v.ghost.consumed = s.ghost.consumed + (k + 1) := by rw [he.consumed_of_rx, h.consumed, Nat.add_assoc]
  refine ⟨v, hv, he.env_eq, ?_⟩
  rcases hto with ⟨hst, hplace⟩ | ⟨hst, hlen, hpub⟩
  · have hev : v.out.evFrame = false := by simp [Bool.eq_false_iff, he.evFrame_iff, hst]
    obtain ⟨hpub, hvalid, hcount⟩ := he.pub_eq hev he.fresh_of_rx
    have hinv := he.decodeInv (fun _ => h.inv) hst
    rw [← he.cfg_eq] at hplace
    refine .inl ⟨?_, hst, he.cfg_eq.trans h.cfg, hplace, hinv, he.ballsSized h.balls, hpub.trans h.pub,
      hvalid.trans h.pubValid, hcount.trans h.pubCount, hcons⟩
    rw [← h.cfg, ← he.cfg_eq]
    exact hplace.lt_formLength hinv.phase
  · have hev : v.out.evFrame = true := he.evFrame_iff.mpr ⟨h.st, hst⟩
    obtain ⟨hjs, hvalid, hcount, -⟩ := he.published hev
    rw [h.cfg] at hlen hpub
    exact .inr ⟨hlen, hst, hjs, hvalid, hpub, by rw [hcount, h.pubCount], hcons, hev⟩

/-! ### The whole decode -/

/-- R127: over bytes of the frame before its last, with any commands but `ABORT` between them, the decode goes on, and takes
exactly these bytes. -/
theorem runs_decode {pre : List Turn} {bs cs : List Byte} {rest : Feed Byte} {ts : Feed Turn} (h : DecodeOver s t k u)
    (ht : t.drop k = bs ++ cs) (hlen : k + bs.length < formLength s.cfg s.frame.js t)
    (hd : Delivers u.env.stream bs rest) (hf : Feeds pre bs.length) (hp : Presents u.env.turns pre ts) :
    ∃ v, runs pre.length u = .next v ∧ DecodeOver s t (k + bs.length) v ∧ v.env = { turns := ts, stream := rest } := by
  induction pre generalizing u k bs with
  | nil =>
    obtain rfl : bs = [] := List.length_eq_zero_iff.mp hf.1.symm
    obtain rfl : u.env.turns = ts := hp
    obtain rfl : u.env.stream = rest := hd
    exact ⟨u, rfl, h, rfl⟩
  | cons x xs ih =>
    obtain ⟨us, hu, hp⟩ := hp
    rcases feeds_cons_cases hf with ⟨rfl, m, hm, hf⟩ | ⟨w, rfl, hw, hf⟩
    · obtain ⟨b, bs, rfl⟩ := List.exists_cons_of_length_eq_add_one hm
      obtain ⟨g, hb, hd⟩ := hd
      obtain rfl : bs.length = m := Nat.succ.inj hm
      have hbyte : t[k]? = some b := by rw [← List.head?_drop, ht]; rfl
      have htail : t.drop (k + 1) = bs ++ cs := by rw [← List.tail_drop, ht]; rfl
      rw [List.length_cons] at hlen
      obtain ⟨v, hv, henv, ⟨-, hover⟩ | ⟨hend, -⟩⟩ := (h.withEnv { turns := us, stream := g }).decodeStep_cases hbyte
      · obtain ⟨y, hy, hover, henv'⟩ := ih hover htail (by omega) (by rw [henv]; exact hd) hf (by rw [henv]; exact hp)
        rw [Nat.add_assoc, Nat.add_comm 1] at hover
        exact ⟨y, (runs_succ ((step_deliver_of_decoding h.st hu hb).trans hv)).trans hy, hover, henv'⟩
      · omega
    · obtain ⟨o, ho, -⟩ := onCommand_of_pulls (w := w) (s := u.withEnv { u.env with turns := us })
        ((St.pulls_iff _).mpr (.inr h.st)) hw
      obtain ⟨y, hy, hover, henv⟩ := ih ((h.withEnv { u.env with turns := us }).withOut o) ht hlen hd hf hp
      exact ⟨y, (runs_succ ((step_command hu).trans ho)).trans hy, hover, henv⟩

end

/-- R127: `FRAME` and then some bytes of the frame, but not all: the decode is on. -/
theorem runs_frame {s : State} {t : List Byte} {pre ys : List Turn} {n : Nat} {rest : Feed Byte} {ts : Feed Turn}
    (hs : s.st = .synced) (hfl : s.cfg.withFrameLayer = true) (hlay : s.cfg.layoutKnown = true) (hsize : BallsSized s)
    (hlen : t.length = formLength s.cfg s.frame.js t) (hd : Delivers s.env.stream t rest) (hf : Feeds pre n)
    (hn : n < t.length) (hp : Presents s.env.turns (issue .frame :: (pre ++ ys)) ts) :
    ∃ u, runs (pre.length + 1) s = .next u ∧ DecodeOver s t n u ∧ Delivers u.env.stream (t.drop n) rest ∧
      Presents u.env.turns ys ts := by
  obtain ⟨us, hu, hp⟩ := hp
  obtain ⟨vs, hpre, hys⟩ := Feed.starts_append.mp hp
  rw [← List.take_append_drop n t] at hd
  obtain ⟨g, htake, hdrop⟩ := Feed.starts_append.mp hd
  have hcount : (t.take n).length = n := List.length_take_of_le hn.le
  have hover := decodeOver_frameStarted hfl hlay hsize t { s.env with turns := us }
  obtain ⟨u, hrun, hover, henv⟩ := runs_decode (cs := t.drop n) hover (by simp)
    (by omega) htake (hcount.symm ▸ hf) hpre
  rw [hcount, Nat.zero_add] at hover
  refine ⟨u, (runs_succ (step_frame hs hfl hlay hu)).trans hrun, hover, ?_, ?_⟩
  · rw [henv]; exact hdrop
  · rw [henv]; exact hys

/-- R134: a link loss presented next is taken. -/
theorem step_linkLost {s : State} {ts : Feed Turn} (ht : nextTurn s.env.turns = some (.linkLost, ts)) :
    step s = .next (takeLinkLost (s.withEnv { s.env with turns := ts })) :=
  step_of_nextEvent (nextEvent_of_next ht rfl)

/-- Settles O33: after `FRAME` and some of the bytes the decode is on (`runs_frame`); the last byte completes it
(`DecodeOver.decodeStep_cases`), and `LinkLost` before it leaves the snapshot. -/
theorem frameDecodeAgreesWithTheWholeFrameView : Obligations.FrameDecodeAgreesWithTheWholeFrameView := by
  intro s t rest hs hfl hlay hsize hlen hd
  refine ⟨fun n pre ts hf hn hp => ⟨fun j hj => ?_, ?_⟩, fun n pre ts hf hn hp => ?_⟩
  · rw [← List.take_append_drop j pre, List.append_assoc] at hp
    rw [← List.take_append_drop j pre] at hf
    obtain ⟨m, hm, hf⟩ := hf.of_append
    obtain ⟨u, hrun, hover, -⟩ := runs_frame hs hfl hlay hsize hlen hd hf (by omega) hp
    rw [List.length_take_of_le hj] at hrun
    exact ⟨u, hrun, hover.st, hover.pub, hover.pubValid, hover.pubCount⟩
  · obtain ⟨u, hrun, hover, hdrop, us, hu, rfl⟩ := runs_frame hs hfl hlay hsize hlen hd hf (by omega) hp
    obtain ⟨b, hb⟩ := List.length_eq_one_iff.mp (show (t.drop n).length = 1 by rw [List.length_drop]; omega)
    have hbyte : t[n]? = some b := by rw [← List.head?_drop, hb]; rfl
    rw [hb] at hdrop
    obtain ⟨_, hg, rfl⟩ := hdrop
    obtain ⟨v, hv, henv, ⟨hlt, -⟩ | ⟨hend, hdone⟩⟩ :=
      (hover.withEnv { turns := us, stream := _ }).decodeStep_cases hbyte
    · omega
    · refine ⟨v, (runs_add 1 hrun).trans (runs_succ ((step_deliver_of_decoding hover.st hu hg).trans hv)), hdone.st,
        hdone.js, hdone.pubValid, hdone.pub, hdone.pubCount, ?_, hdone.evFrame, henv⟩
      rw [hdone.consumed, hn]
  · obtain ⟨u, hrun, hover, -, us, hu, rfl⟩ := runs_frame hs hfl hlay hsize hlen hd hf hn hp
    have hlost := step_linkLost hu
    rw [takeLinkLost_entry (by simp [hover.st])] at hlost
    exact ⟨_, (runs_add 1 hrun).trans (runs_succ hlost), rfl, rfl, hover.pub, hover.pubValid, hover.pubCount,
      hover.consumed⟩

end Sys2Proof.Machine
end

section
/-! `LinkLost` as whole-state equalities (R134): the settling of O37. -/

namespace Sys2Proof.Machine

open Sys2Proof

/-- Outside `FAULTED` the event `LL` answers `linkLostTaken`. -/
theorem onEvent_linkLost_of_ne_faulted {s : State} (hs : s.st ≠ .faulted) :
    onEvent .linkLost s = .next (linkLostTaken s) :=
  congrArg _ (takeLinkLost_entry hs)

/-- In `FAULTED` the event `LL` changes only the outputs. -/
theorem onEvent_linkLost_of_faulted {s : State} (hs : s.st = .faulted) :
    onEvent .linkLost s = .next (s.withOut Outputs.quiet) :=
  congrArg _ (takeLinkLost_faulted hs)

/-- Settles O37, by the state `LL` finds: outside `FAULTED` the fault is entered and `dropFrame` clears `JS` and `CNT` when
there is a frame layer and nothing when there is none; in `FAULTED` there is no effect. -/
theorem linkLostEntersFaulted : Obligations.LinkLostEntersFaulted := by
  refine fun s => ⟨fun hs hf => ?_, fun hs hf => ?_, onEvent_linkLost_of_faulted⟩
  · rw [onEvent_linkLost_of_ne_faulted hs, linkLostTaken, dropFrame_of_layer hf]
  · rw [onEvent_linkLost_of_ne_faulted hs, linkLostTaken, dropFrame_of_no_layer hf]

end Sys2Proof.Machine
end

section
/-! `RESET` from any state (R151): the settling of O40. -/

namespace Sys2Proof.Machine

open Sys2Proof

/-- R151: `RESET` is enabled in every state and answers `takeReset`. -/
theorem onEvent_reset (s : State) : onEvent .reset s = .next (takeReset s) := rfl

/-- R151: with the frame layer, its registers after `RESET` are the draw of `FrameLayer.unspecified`. -/
theorem takeReset_frame_of_layer {s : State} (hf : s.cfg.withFrameLayer = true) :
    (takeReset s).frame = FrameLayer.unspecified s.cfg s.fresh := if_pos hf

/-- Settles O40: the next state is `takeReset s`, read field by field; `JS` and `PUB_VALID` are the two frame registers
whose value the draw fixes. -/
theorem resetReachesTheInitialState : Obligations.ResetReachesTheInitialState := by
  refine fun s => ⟨takeReset s, onEvent_reset s, takeReset_st s, takeReset_cause s, takeReset_lv s, fun hf => ?_, ?_⟩
  · rw [takeReset_frame_of_layer hf]
    exact ⟨rfl, rfl⟩
  · simp [Ghosts.reset]

end Sys2Proof.Machine
end

section
/-! Decoding inverts encoding in every build (R72 to R76): the settling of O1. -/

namespace Sys2Proof

/-- Settles O1: a word that decodes is the encoding of an operation of the build (`encode_of_decodeFor`), and that encoding
decodes to it (`decodeFor_encode`). -/
theorem decodeExactlyInvertsEncode : Obligations.DecodeExactlyInvertsEncode := by
  refine fun fl w i => ⟨fun h => ⟨Machine.wellFormed_of_decodeFor h, encode_of_decodeFor h⟩, ?_⟩
  rintro ⟨hi, rfl⟩
  exact decodeFor_encode hi

end Sys2Proof
end

section
/-! `FRAME` where the layout is not known (R66): the settling of O7. -/

namespace Sys2Proof.Machine

open Sys2Proof

/-- R66: with no layout known, the `FRAME` that would be performed is given no meaning. -/
theorem exec_frame_of_layout_unknown {s : State} (hs : s.st = .synced) (hfl : s.cfg.withFrameLayer = true)
    (hlay : s.cfg.layoutKnown = false) : exec .frame s = .refused .robotListLayoutUnknown :=
  (if_pos ⟨hs, hfl⟩).trans (if_neg (Bool.eq_false_iff.mp hlay))

/-- Settles O7: the layout is unknown by the definition of `layoutKnown`. -/
theorem unknownLayoutIsRefusedByName : Obligations.UnknownLayoutIsRefusedByName :=
  fun _ hs hfl hlist => exec_frame_of_layout_unknown hs hfl (by simp [Config.layoutKnown, hlist])

end Sys2Proof.Machine
end

section
/-! Which events are enabled, and what an event can stop with (R36, R39): the settling of O47. -/

namespace Sys2Proof.Machine

open Sys2Proof

/-- R36, R43: the states in which the block pulls no byte. -/
theorem St.pulls_eq_false_iff (x : St) : x.pulls = false ↔ x ≠ .hunt ∧ x ≠ .decoding := by
  rw [Bool.eq_false_iff, Ne, x.pulls_iff, not_or]

/-- R36: a byte is no event while the block does not pull. -/
theorem onEvent_rx_of_not_pulls {s : State} (hs : s.st.pulls = false) (b : Byte) :
    onEvent (.rx b) s = .fault .rxNotEnabled := by
  obtain ⟨hhunt, hdec⟩ := s.st.pulls_eq_false_iff.mp hs
  rcases onRx_cases b s with ⟨hst, -⟩ | ⟨hst, -⟩ | ⟨-, -, he⟩
  · exact absurd hst hhunt
  · exact absurd hst hdec
  · exact he

/-- R39: a decode step stops exactly with `CNT` past the unit of its phase. The skip phase has a rule for every `CNT`. -/
theorem decodeStep_eq_fault_iff {b : Byte} {s : State} {f : Fault} : decodeStep b s = .fault f ↔
    f = .noRule ∧ s.frame.ph ≠ .skip ∧ (if s.frame.ph = .rob then 4 else 1) < s.frame.cnt.toNat := by
  rcases decodeStep_cases b s with ⟨hp, he⟩ | ⟨hp, he⟩ | ⟨hp, hc, he⟩ | ⟨hp, hc, he⟩ | ⟨hp, hc, he⟩ | ⟨h4, h1, he⟩
  · simp [he, hp]
  · rcases hp with ⟨hp, hc⟩ | ⟨hp, hc⟩ | ⟨hp, hc⟩
    · simp [he, hp, hc]
    · simp [he, hp]; omega
    · simp [he, hp, hc]
  · simp [he, hp, hc]
  · simp [he, hp, hc]
  · simp [he, hp, hc]
  · have hskip : s.frame.ph ≠ .skip := fun hp => nomatch he.symm.trans (decodeStep_of_skip hp)
    have hcnt : (if s.frame.ph = .rob then 4 else 1) < s.frame.cnt.toNat := by
      split
      · next hp => exact h4 hp
      · next hp => exact h1 hp
    simpa [he, hskip, hcnt] using eq_comm

/-- R77: no command faults, whatever its word. -/
theorem onEvent_command_ne_fault (w : Word) (s : State) (f : Fault) : onEvent (.command w) s ≠ .fault f := by
  intro h
  rcases onCommand_cases w s with ⟨i, -, he⟩ | ⟨r, -, he⟩ <;> rw [onEvent, he] at h
  · cases i with
    | sync => rcases execSync_cases s with ⟨-, hx⟩ | ⟨-, hx⟩ <;> cases hx.symm.trans h
    | abort => rcases execAbort_cases s with ⟨-, hx⟩ | ⟨-, hx⟩ <;> cases hx.symm.trans h
    | declin | decang => cases h
    | frame =>
      rcases execFrame_cases s with ⟨-, -, -, hx⟩ | ⟨-, -, -, hx⟩ | ⟨-, hx⟩ <;> cases hx.symm.trans h
  · cases h

/-- R36, R39: only a byte can stop the block: one that is no event, or one that no rule of the decode names. -/
theorem onEvent_fault_cases {e : Event} {s : State} {f : Fault} (h : onEvent e s = .fault f) :
    ∃ b, e = .rx b ∧
      (s.st.pulls = false ∧ f = .rxNotEnabled ∨ s.st = .decoding ∧ decodeStep b s = .fault f) := by
  cases e with
  | command w => exact absurd h (onEvent_command_ne_fault w s f)
  | linkLost | reset => cases h
  | rx b =>
    refine ⟨b, rfl, ?_⟩
    rcases onRx_cases b s with ⟨-, he⟩ | ⟨hs, he⟩ | ⟨hhunt, hdec, he⟩ <;> replace he := he.symm.trans h
    · cases he
    · exact .inr ⟨hs, he⟩
    · cases he
      exact .inl ⟨s.st.pulls_eq_false_iff.mpr ⟨hhunt, hdec⟩, rfl⟩

/-- Settles O47: a byte that the block does not pull is no event, and one that it pulls does not stop it by that name; the
other events never fault. -/
theorem eventsAreEnabledByTheTable : Obligations.EventsAreEnabledByTheTable := by
  refine fun s => ⟨fun b => ⟨fun h => ?_, fun hs => onEvent_rx_of_not_pulls (s.st.pulls_eq_false_iff.mpr hs) b⟩,
    ⟨_, rfl, takeLinkLost_faulted⟩, ⟨_, onEvent_reset s⟩, fun w f => onEvent_command_ne_fault w s f⟩
  obtain ⟨_, -, ⟨hp, -⟩ | ⟨-, hd⟩⟩ := onEvent_fault_cases h
  · exact s.st.pulls_eq_false_iff.mp hp
  · cases (decodeStep_eq_fault_iff.mp hd).1

end Sys2Proof.Machine
end

section
/-! Two runs of the machine side by side: from states a relation holds of, an event has answers that match. What a relation
must be like for that is said once (`KeptByEvents`); the settlings of O16 and O52 each show it of a relation of their own. -/

namespace Sys2Proof.Machine

open Sys2Proof

/-- Two answers are related: next states by `R`, and stops by being the same. -/
inductive Answers (R : State → State → Prop) :
    Host.Outcome State Fault Refusal → Host.Outcome State Fault Refusal → Prop where
  | next {s t : State} (h : R s t) : Answers R (.next s) (.next t)
  | fault (f : Fault) : Answers R (.fault f) (.fault f)
  | refused (r : Refusal) : Answers R (.refused r) (.refused r)

/-- So the second machine has an answer to match each of the first. -/
theorem Answers.matched {R : State → State → Prop} {o p : Host.Outcome State Fault Refusal} (h : Answers R o p) :
    (∀ s, o = .next s → ∃ t, p = .next t ∧ R s t) ∧ (∀ f, o = .fault f → p = .fault f) ∧
    (∀ r, o = .refused r → p = .refused r) := by
  cases h with
  | next h =>
    refine ⟨fun s' hs => ?_, fun f hf => ?_, fun r hr => ?_⟩
    · cases hs; exact ⟨_, rfl, h⟩
    · cases hf
    · cases hr
  | fault f => exact ⟨fun s' hs => (by cases hs), fun _ h => h, fun r hr => (by cases hr)⟩
  | refused r => exact ⟨fun s' hs => (by cases hs), fun f hf => (by cases hf), fun _ h => h⟩

/-- The related states agree on what chooses the effect of an event (the build, `ST`, the predicate of R25), and each
effect outside a decode keeps them related, as does the decode step. -/
structure KeptByEvents (R : State → State → Prop) : Prop where
  cfg           {s t : State} (h : R s t) : s.cfg = t.cfg
  st            {s t : State} (h : R s t) : s.st = t.st
  pm            {s t : State} (h : R s t) : s.pm = t.pm
  withOut       {s t : State} (h : R s t) (o : Outputs) : R (s.withOut o) (t.withOut o)
  syncStarted   {s t : State} (h : R s t) : R (syncStarted s) (syncStarted t)
  aborted       {s t : State} (h : R s t) : R (aborted s) (aborted t)
  frameStarted  {s t : State} (h : R s t) : R (frameStarted s) (frameStarted t)
  linkLostTaken {s t : State} (h : R s t) : R (linkLostTaken s) (linkLostTaken t)
  takeReset     {s t : State} (h : R s t) : R (takeReset s) (takeReset t)
  syncEvent     {s t : State} (h : R s t) : R (syncEvent (rxByte s)) (syncEvent (rxByte t))
  windowShifted {s t : State} (h : R s t) (hs : s.st = .hunt) (b : Byte) : R (windowShifted b s) (windowShifted b t)
  decodeStep    {s t : State} (h : R s t) (hs : s.st = .decoding) (b : Byte) :
    Answers R (decodeStep b s) (decodeStep b t)

/-- R25, R86: a hunt step reads of the window whether it holds a marker, and no more. -/
theorem huntStep_eq_ite (b : Byte) (s : State) :
    huntStep b s = if s.pm = true ∧ b = syncMarker then syncEvent (rxByte s) else windowShifted b s := by
  simp only [huntStep, windowShifted, State.pm, Bool.and_eq_true, decide_eq_true_eq, and_assoc]

/-- R113 to R120: that no rule names `PH` and `CNT` depends on these two alone. -/
theorem decodeStep_fault_of_eq {s t : State} {b : Byte} {f : Fault} (h : decodeStep b s = .fault f)
    (hph : s.frame.ph = t.frame.ph) (hcnt : s.frame.cnt = t.frame.cnt) : decodeStep b t = .fault f := by
  rw [decodeStep_eq_fault_iff] at h ⊢
  rwa [← hph, ← hcnt]

section
variable {R : State → State → Prop} {s t : State}

/-- R77, R96: which command is performed depends on `ST` and the build, and so does a result. -/
theorem KeptByEvents.answers_exec (k : KeptByEvents R) (h : R s t) (i : Instr) : Answers R (exec i s) (exec i t) := by
  have hst := k.st h
  have hcfg := k.cfg h
  by_cases hp : performedIn i s.st = false ∨ wellFormed s.cfg.withFrameLayer i = false
  · rw [exec_of_not_performed hp, exec_of_not_performed (hst ▸ hcfg ▸ hp)]
    exact .next (k.withOut h _)
  · simp only [not_or, Bool.not_eq_false] at hp
    obtain ⟨hp, hw⟩ := hp
    cases i with
    | sync =>
      have hs : s.st = .unsynced := of_decide_eq_true hp
      rw [exec_sync_of_unsynced hs, exec_sync_of_unsynced (hst ▸ hs)]
      exact .next (k.syncStarted h)
    | abort =>
      have hs : s.st ≠ .faulted := of_decide_eq_true hp
      rw [exec_abort_of_ne_faulted hs, exec_abort_of_ne_faulted (hst ▸ hs)]
      exact .next (k.aborted h)
    | declin b => exact .next (k.withOut h _)
    | decang b n =>
      rw [exec, exec, execDecang, execDecang, ← hcfg]
      exact .next (k.withOut h _)
    | frame =>
      have hs : s.st = .synced := of_decide_eq_true hp
      have hs' : t.st = .synced := hst ▸ hs
      have hfl : t.cfg.withFrameLayer = true := hcfg ▸ hw
      cases hlay : s.cfg.layoutKnown with
      | true =>
        rw [exec_frame_of_synced hs hw hlay, exec_frame_of_synced hs' hfl (hcfg ▸ hlay)]
        exact .next (k.frameStarted h)
      | false =>
        rw [exec_frame_of_layout_unknown hs hw hlay, exec_frame_of_layout_unknown hs' hfl (hcfg ▸ hlay)]
        exact .refused _

/-- R19: the effect of each event, by what chooses it. -/
theorem KeptByEvents.answers_onEvent (k : KeptByEvents R) (h : R s t) (e : Event) :
    Answers R (onEvent e s) (onEvent e t) := by
  have hst := k.st h
  cases e with
  | command w =>
    rcases onCommand_cases w s with ⟨i, hd, he⟩ | ⟨r, hd, he⟩
    · rw [onEvent, onEvent, he, onCommand_of_decodeFor (k.cfg h ▸ hd)]
      exact k.answers_exec h i
    · rw [onEvent, onEvent, he, onCommand_of_illegal (k.cfg h ▸ hd)]
      exact .next (k.withOut h _)
  | rx b =>
    rcases onRx_cases b s with ⟨hs, -⟩ | ⟨hs, -⟩ | ⟨hhunt, hdec, -⟩
    · rw [onEvent_rx_of_hunt hs, onEvent_rx_of_hunt (hst ▸ hs), huntStep_eq_ite, huntStep_eq_ite, ← k.pm h]
      split
      · exact .next (k.syncEvent h)
      · exact .next (k.windowShifted h hs b)
    · rw [onEvent_rx_of_decoding hs, onEvent_rx_of_decoding (hst ▸ hs)]
      exact k.decodeStep h hs b
    · have hp : s.st.pulls = false := s.st.pulls_eq_false_iff.mpr ⟨hhunt, hdec⟩
      rw [onEvent_rx_of_not_pulls hp, onEvent_rx_of_not_pulls (hst ▸ hp)]
      exact .fault _
  | linkLost =>
    by_cases hs : s.st = .faulted
    · rw [onEvent_linkLost_of_faulted hs, onEvent_linkLost_of_faulted (hst ▸ hs)]
      exact .next (k.withOut h _)
    · rw [onEvent_linkLost_of_ne_faulted hs, onEvent_linkLost_of_ne_faulted (hst ▸ hs)]
      exact .next (k.linkLostTaken h)
  | reset => exact .next (k.takeReset h)

end

end Sys2Proof.Machine
end

section
/-! Only the predicate `LV = 1 and LAST = 0xFF` matters (R25): the settling of O16. -/

namespace Sys2Proof.Machine

open Sys2Proof

/-- R24, R25: the state with another `LAST` and `LV`. -/
def State.withWindow (s : State) (l : Byte) (v : Bool) : State := { s with last := l, lv := v }

/-- R25: two states that differ in `LAST` and `LV` alone, with the same predicate. -/
def SamePm (s t : State) : Prop := ∃ l v, t = s.withWindow l v ∧ t.pm = s.pm

section
variable {s t : State}

/-- An operation that leaves `LAST` and `LV`, and reads neither, keeps two such states alike. -/
theorem SamePm.map {f : State → State} (h : SamePm s t) (hf : ∀ l v, f (s.withWindow l v) = (f s).withWindow l v)
    (hpm : (f s).pm = s.pm) : SamePm (f s) (f t) := by
  obtain ⟨l, v, rfl, hv⟩ := h
  exact ⟨l, v, hf l v, by rw [hf, hpm]; exact hv⟩

/-- An operation that gives `LAST` and `LV` values that depend on neither makes two such states equal in them. -/
theorem SamePm.map_overwrite {f : State → State} (h : SamePm s t) (hf : ∀ l v, f (s.withWindow l v) = f s) :
    SamePm (f s) (f t) := by
  obtain ⟨l, v, rfl, -⟩ := h
  exact ⟨(f s).last, (f s).lv, hf l v, by rw [hf]⟩

/-- R85: an operation that empties the window, and leaves `LAST`, makes the predicate false in both. -/
theorem SamePm.map_empty {f : State → State} (h : SamePm s t)
    (hf : ∀ l v, f (s.withWindow l v) = (f s).withWindow l false) (hlv : (f s).lv = false) : SamePm (f s) (f t) := by
  obtain ⟨l, v, rfl, -⟩ := h
  exact ⟨l, false, hf l v, by rw [hf, State.pm, State.pm, hlv]; rfl⟩

/-- R113 to R120: no byte of a frame touches the window. -/
theorem Effect.pm_of_decoding {b : Byte} (he : Effect (.rx b) s t) (hs : s.st = .decoding) :
    t.pm = s.pm := by
  cases he with
  | pair h | shift h => cases hs.symm.trans h
  | _ => rfl

theorem headerByte_withWindow (b l : Byte) (v : Bool) (s : State) :
    headerByte b (s.withWindow l v) = (headerByte b s).withWindow l v := by
  unfold headerByte afterRobots
  rw [apply_ite (State.withWindow · l v), apply_ite (State.withWindow · l v)]
  rfl

theorem robotByte_withWindow (b l : Byte) (v : Bool) (s : State) :
    robotByte b (s.withWindow l v) = (robotByte b s).withWindow l v := by
  unfold robotByte afterRobots
  rw [apply_ite (State.withWindow · l v), apply_ite (State.withWindow · l v)]
  rfl

theorem ballByte_withWindow (b l : Byte) (v : Bool) (s : State) :
    ballByte b (s.withWindow l v) = (ballByte b s).withWindow l v := by
  unfold ballByte
  rw [apply_ite (State.withWindow · l v)]
  rfl

/-- R113 to R120: a byte of a frame does the same whatever the window holds. -/
theorem SamePm.answers_decodeStep (h : SamePm s t) (hs : s.st = .decoding) (b : Byte) :
    Answers SamePm (decodeStep b s) (decodeStep b t) := by
  obtain ⟨l, v, rfl, hv⟩ := h
  have hnext {f : State → State} (he : decodeStep b s = .next (f s))
      (hf : f (s.withWindow l v) = (f s).withWindow l v) : SamePm (f s) (f (s.withWindow l v)) :=
    ⟨l, v, hf, by rw [hf, (decodeStep_effect hs he).pm_of_decoding hs]; exact hv⟩
  rcases decodeStep_cases b s with ⟨hp, he⟩ | ⟨hp, he⟩ | ⟨hp, hc, he⟩ | ⟨hp, hc, he⟩ | ⟨hp, hc, he⟩ | ⟨-, -, he⟩
  · rw [he, decodeStep_of_skip (s := s.withWindow l v) hp]
    exact .next (hnext (f := fun u => skipByte (rxByte u)) he rfl)
  · rw [he, decodeStep_of_incomplete (s := s.withWindow l v) hp]
    exact .next (hnext (f := fun u => gather b (rxByte u)) he rfl)
  · rw [he, decodeStep_second_header (s := s.withWindow l v) hp hc]
    exact .next (hnext (f := fun u => headerByte b (rxByte u)) he (headerByte_withWindow b l v (rxByte s)))
  · rw [he, decodeStep_of_robot (s := s.withWindow l v) hp hc]
    exact .next (hnext (f := fun u => robotByte b (rxByte u)) he (robotByte_withWindow b l v (rxByte s)))
  · rw [he, decodeStep_of_ball (s := s.withWindow l v) hp hc]
    exact .next (hnext (f := fun u => ballByte b (rxByte u)) he (ballByte_withWindow b l v (rxByte s)))
  · rw [he, decodeStep_fault_of_eq (t := s.withWindow l v) he rfl rfl]
    exact .fault _

end

/-- R25: the window is read by the hunt step alone, and there only the predicate. -/
theorem samePm_keptByEvents : KeptByEvents SamePm where
  cfg h := by obtain ⟨l, v, rfl, -⟩ := h; rfl
  st h := by obtain ⟨l, v, rfl, -⟩ := h; rfl
  pm h := by obtain ⟨l, v, -, hv⟩ := h; exact hv.symm
  withOut h o := h.map (f := (State.withOut · o)) (fun _ _ => rfl) rfl
  syncStarted h := h.map_empty (fun _ _ => rfl) rfl
  aborted h := h.map_empty (fun _ _ => rfl) rfl
  frameStarted h := h.map (fun _ _ => rfl) rfl
  linkLostTaken h := h.map_empty (fun _ _ => rfl) rfl
  takeReset h := h.map_overwrite fun _ _ => rfl
  syncEvent h := h.map (f := fun u => syncEvent (rxByte u)) (fun _ _ => rfl) rfl
  windowShifted h _ b := h.map_overwrite (f := windowShifted b) fun _ _ => rfl
  decodeStep h hs b := h.answers_decodeStep hs b

/-- Settles O16: the answers to any event from two such states match (`KeptByEvents.answers_onEvent`). -/
theorem onlyThePreviousMarkerBitMatters : Obligations.OnlyThePreviousMarkerBitMatters := by
  intro s l v e hpm
  obtain ⟨hnext, hfault, hrefused⟩ :=
    (samePm_keptByEvents.answers_onEvent (s := s) (t := s.withWindow l v) ⟨l, v, rfl, hpm⟩ e).matched
  refine ⟨fun t ht => ?_, hfault, hrefused⟩
  obtain ⟨_, hu, l', v', rfl, hpm'⟩ := hnext t ht
  exact ⟨l', v', hu, hpm'⟩

end Sys2Proof.Machine
end

section
/-! Unspecified values are never observed (R38, R126, R151): the settling of O52 and O53. `SameVisible` is kept by each effect
of an event; where a frame is decoded, a byte keeps it because it reads only what this frame has already written. -/

namespace Sys2Proof.Machine

open Sys2Proof

section
variable {s t : State}

/-! ### Updates outside the frame being decoded -/

theorem sameVisible_withOut (h : SameVisible s t) (o : Outputs) : SameVisible (s.withOut o) (t.withOut o) :=
  { h with decode := fun hs => { h.decode hs with }, out := rfl }

theorem sameVisible_withEnv (h : SameVisible s t) (v : Env) : SameVisible (s.withEnv v) (t.withEnv v) :=
  { h with decode := fun hs => { h.decode hs with }, env := rfl }

theorem sameVisible_rxByte (h : SameVisible s t) : SameVisible (rxByte s) (rxByte t) :=
  { h with decode := fun hs => { h.decode hs with }, ghost := by simp [h.ghost], out := rfl }

theorem sameVisible_syncStarted (h : SameVisible s t) : SameVisible (syncStarted s) (syncStarted t) :=
  { h with st := rfl, lv := rfl, last := nofun, decode := nofun, ghost := by simp [h.ghost], out := rfl }

/-- R90, R134: what is dropped of a frame is dropped of both. -/
theorem dropFrame_js_eq (h : SameVisible s t) : (dropFrame s).frame.js = (dropFrame t).frame.js := by
  simp [h.cfg, h.js]

/-- R85, R90: the window is empty and the frame in progress is gone. -/
theorem sameVisible_aborted (h : SameVisible s t) : SameVisible (aborted s) (aborted t) :=
  { h with st := rfl, lv := rfl, last := nofun, js := dropFrame_js_eq h, decode := nofun, out := rfl }

theorem sameVisible_linkLostTaken (h : SameVisible s t) : SameVisible (linkLostTaken s) (linkLostTaken t) :=
  { h with
    st := rfl, lv := rfl, last := nofun, cause := rfl, js := dropFrame_js_eq h, decode := nofun, out := rfl }

theorem sameVisible_syncEvent (h : SameVisible s t) : SameVisible (syncEvent s) (syncEvent t) :=
  { h with st := rfl, js := by simp [h.cfg, h.js], decode := nofun, ghost := by simp [h.ghost], out := rfl }

theorem sameVisible_windowShifted (h : SameVisible s t) (b : Byte) (hs : s.st ≠ .decoding) :
    SameVisible (windowShifted b s) (windowShifted b t) :=
  { sameVisible_rxByte h with lv := rfl, last := fun _ => rfl, decode := fun hd => absurd hd hs, out := rfl }

/-- R151: what `RESET` draws, or leaves in a build without the frame layer, is visibly the same. -/
theorem sameVisible_takeReset (h : SameVisible s t) : SameVisible (takeReset s) (takeReset t) := by
  have hframe : (takeReset s).frame.js = (takeReset t).frame.js ∧
      (takeReset s).frame.pubValid = (takeReset t).frame.pubValid ∧
      ((takeReset s).frame.pubValid = true → (takeReset s).frame.pub = (takeReset t).frame.pub) ∧
      (takeReset s).frame.bal.length = (takeReset t).frame.bal.length := by
    cases hf : s.cfg.withFrameLayer with
    | true =>
      rw [takeReset_frame_of_layer hf, takeReset_frame_of_layer (h.cfg ▸ hf), h.cfg]
      exact ⟨rfl, rfl, nofun, by simp [FrameLayer.unspecified]⟩
    | false => simpa [← h.cfg, hf] using And.intro h.js ⟨h.pubValid, h.pub, h.ballsLen⟩
  obtain ⟨hjs, hvalid, hpub, hlen⟩ := hframe
  exact { h with
    st := rfl, lv := rfl, last := nofun, cause := rfl, js := hjs, pubValid := hvalid, pub := hpub, ballsLen := hlen,
    decode := nofun, ghost := rfl, out := rfl }

/-- R126: until the header is read a frame has written nothing that a later step reads. -/
theorem sameDecode_of_nothing_written (hph : s.frame.ph = t.frame.ph) (hcnt : s.frame.cnt = t.frame.cnt)
    (hidx : s.frame.idx = t.frame.idx) (hp : s.frame.ph = .skip ∨ s.frame.ph = .hdr ∧ s.frame.cnt = 0) :
    SameDecode s t := by
  have hrob : s.frame.ph ≠ .rob := by rcases hp with hp | ⟨hp, -⟩ <;> simp [hp]
  have hbal : s.frame.ph ≠ .bal := by rcases hp with hp | ⟨hp, -⟩ <;> simp [hp]
  refine ⟨hph, hcnt, hidx, fun hne i hi => ?_, fun hd => absurd hd (by simp [hrob, hbal]), fun hd => absurd hd hrob,
    fun hd => absurd hd hbal, fun hd => absurd hd hbal⟩
  rcases hp with hp | ⟨-, hc⟩
  · exact absurd hp hne
  · simp [hc] at hi

/-- R112: `JS` is the same, and a frame that begins has written nothing. -/
theorem sameVisible_frameStarted (h : SameVisible s t) : SameVisible (frameStarted s) (frameStarted t) :=
  { h with
    st := rfl, out := rfl
    decode := fun _ => sameDecode_of_nothing_written (by simp [h.js]) rfl rfl
      (by cases hjs : s.frame.js <;> simp [hjs]) }

/-! ### The frame being decoded -/

/-- R115, R122, R126: the counts are the same, and so are the robots, in a build that has them. -/
structure SameRobots (s t : State) : Prop where
  nr  : s.frame.nr = t.frame.nr
  nb  : s.frame.nb = t.frame.nb
  rob : s.cfg.withRobotList = true → ∀ i, i < s.frame.nr.toNat → s.frame.rob[i]? = t.frame.rob[i]?

/-- Lists that agree below `n` have the same first `n` elements. -/
theorem take_eq_take {α : Type} {l m : List α} {n : Nat} (h : ∀ i, i < n → l[i]? = m[i]?) : l.take n = m.take n := by
  refine List.ext_getElem? fun i => ?_
  by_cases hi : i < n
  · simp [hi, h i hi]
  · simp [hi]

/-- R122: a publish copies what the frame has written, and nothing else. -/
theorem snapshotOf_eq (h : SameVisible s t) (hr : SameRobots s t)
    (hb : ∀ i, i < s.frame.nb.toNat → s.frame.bal[i]? = t.frame.bal[i]?) : snapshotOf s = snapshotOf t := by
  have hrob : (if s.cfg.withRobotList then s.frame.rob.toList.take s.frame.nr.toNat else []) =
      if t.cfg.withRobotList then t.frame.rob.toList.take t.frame.nr.toNat else [] := by
    rw [← h.cfg, ← hr.nr]
    cases hl : s.cfg.withRobotList with
    | true => exact take_eq_take fun i hi => by simpa using hr.rob hl i hi
    | false => rfl
  rw [snapshotOf, snapshotOf, hrob, take_eq_take hb, hr.nr, hr.nb]

/-- R122, R124: the frame is complete. -/
theorem sameVisible_finish (h : SameVisible s t) (hr : SameRobots s t)
    (hb : ∀ i, i < s.frame.nb.toNat → s.frame.bal[i]? = t.frame.bal[i]?) : SameVisible (finish s) (finish t) :=
  { h with
    st := rfl, js := rfl, pubValid := rfl, pub := fun _ => snapshotOf_eq h hr hb, decode := nofun,
    ghost := by simp [h.ghost], out := rfl }

/-- R118: a robot record begins, the ones before it stored. -/
theorem sameVisible_goTo_rob {i : Byte} (h : SameVisible s t) (hnr : s.frame.nr = t.frame.nr)
    (hnb : s.frame.nb = t.frame.nb) (hrob : ∀ j, j < i.toNat → s.frame.rob[j]? = t.frame.rob[j]?) :
    SameVisible (goTo .rob i s) (goTo .rob i t) :=
  { h with
    decode := fun _ =>
      { ph := rfl, cnt := rfl, idx := rfl, scr := fun _ _ hi => absurd hi (Nat.not_lt_zero _),
        counts := fun _ => ⟨hnr, hnb⟩, rob := fun _ => hrob, robots := nofun, bal := nofun } }

/-- R120: a ball record begins, the robots and the balls before it stored. -/
theorem sameVisible_goTo_bal {i : Byte} (h : SameVisible s t) (hr : SameRobots s t)
    (hbal : ∀ j, j < i.toNat → s.frame.bal[j]? = t.frame.bal[j]?) :
    SameVisible (goTo .bal i s) (goTo .bal i t) :=
  { h with
    decode := fun _ =>
      { ph := rfl, cnt := rfl, idx := rfl, scr := fun _ _ hi => absurd hi (Nat.not_lt_zero _),
        counts := fun _ => ⟨hr.nr, hr.nb⟩, rob := nofun, robots := fun _ => hr.rob, bal := fun _ => hbal } }

/-- R115, R118: with the robots stored, the balls come next, or there are none. -/
theorem sameVisible_afterRobots (h : SameVisible s t) (hr : SameRobots s t) :
    SameVisible (afterRobots s) (afterRobots t) := by
  unfold afterRobots
  rw [← hr.nb]
  split
  · exact sameVisible_goTo_bal h hr fun j hj => absurd hj (Nat.not_lt_zero j)
  · next hb => exact sameVisible_finish h hr fun j hj => absurd (Nat.zero_lt_of_lt hj) hb

/-- R113: the two bytes of the marker pair are counted alike. -/
theorem sameVisible_skipByte (h : SameVisible s t) (hs : s.st = .decoding) (hp : s.frame.ph = .skip) :
    SameVisible (skipByte s) (skipByte t) :=
  have d := h.decode hs
  { h with
    decode := fun _ => sameDecode_of_nothing_written (by simp [d.cnt, d.ph]) (by simp [d.cnt]) d.idx
      (by simp only [skipByte_frame]; split <;> simp [hp]) }

/-- R46: the gathered byte is put at the same place of both buffers. -/
theorem sameVisible_gather (h : SameVisible s t) (b : Byte) (hs : s.st = .decoding) (hp : s.frame.ph ≠ .skip) :
    SameVisible (gather b s) (gather b t) :=
  have d := h.decode hs
  { h with
    decode := fun _ =>
      { d with
        cnt := congrArg (· + 1) d.cnt
        scr := fun _ i hi => by
          have hle : i ≤ s.frame.cnt.toNat := by
            change i < (s.frame.cnt + 1).toNat at hi
            bv_omega
          have hset := d.scr hp i
          simp only [gather_frame, ← d.cnt, Vector.getElem?_setIfInBounds]
          split
          · rfl
          · exact hset (by omega) } }

/-- R115: the counts are those of the header, the first of which is gathered in both. -/
theorem sameVisible_headerByte (h : SameVisible s t) (b : Byte) (hs : s.st = .decoding) (hp : s.frame.ph = .hdr)
    (hc : s.frame.cnt = 1) : SameVisible (headerByte b s) (headerByte b t) := by
  have d := h.decode hs
  have hscr : s.frame.scr[0] = t.frame.scr[0] := by simpa using d.scr (by simp [hp]) 0 (by simp [hc])
  have hstore : SameVisible (storeHeader b s) (storeHeader b t) :=
    { h with
      decode := fun _ => sameDecode_of_nothing_written d.ph rfl rfl (.inr ⟨hp, rfl⟩) }
  have hnr : (storeHeader b s).frame.nr = (storeHeader b t).frame.nr := by simp [hscr]
  have hnb : (storeHeader b s).frame.nb = (storeHeader b t).frame.nb := by simp [h.cfg]
  have hread : robotsToRead (storeHeader b s) = robotsToRead (storeHeader b t) := by
    rw [robotsToRead, robotsToRead, hnr, hstore.cfg]
  unfold headerByte
  rw [← hread]
  split
  · exact sameVisible_goTo_rob hstore hnr hnb fun j hj => absurd hj (Nat.not_lt_zero j)
  · next hz =>
    refine sameVisible_afterRobots hstore ⟨hnr, hnb, fun hl j hj => absurd (Nat.zero_lt_of_lt hj) ?_⟩
    rwa [robotsToRead, if_pos hl] at hz

/-- R118: the record is decoded from the same bytes and stored at the same index. -/
theorem sameVisible_robotByte (h : SameVisible s t) (b : Byte) (hs : s.st = .decoding) (hp : s.frame.ph = .rob)
    (hc : s.frame.cnt = 4) : SameVisible (robotByte b s) (robotByte b t) := by
  have d := h.decode hs
  obtain ⟨hnr, hnb⟩ := d.counts (.inl hp)
  have hscr := d.scr (by simp [hp])
  have hrec : robotRecord b s = robotRecord b t := by
    have h0 : s.frame.scr[0] = t.frame.scr[0] := by simpa using hscr 0 (by simp [hc])
    have h1 : s.frame.scr[1] = t.frame.scr[1] := by simpa using hscr 1 (by simp [hc])
    have h2 : s.frame.scr[2] = t.frame.scr[2] := by simpa using hscr 2 (by simp [hc])
    have h3 : s.frame.scr[3] = t.frame.scr[3] := by simpa using hscr 3 (by simp [hc])
    rw [robotRecord, robotRecord, h.cfg, h0, h1, h2, h3]
  have hrob : ∀ j, j < s.frame.idx.toNat + 1 →
      (storeRobot (robotRecord b s) s).frame.rob[j]? = (storeRobot (robotRecord b s) t).frame.rob[j]? := by
    intro j hj
    have hbelow := d.rob hp j
    simp only [storeRobot_frame, ← d.idx, Vector.getElem?_setIfInBounds]
    split
    · rfl
    · exact hbelow (by omega)
  have hstore : SameVisible (storeRobot (robotRecord b s) s) (storeRobot (robotRecord b s) t) :=
    { h with
      decode := fun _ =>
        { d with rob := fun _ j hj => hrob j (Nat.lt_succ_of_lt hj), robots := fun hd => nomatch hp.symm.trans hd } }
  unfold robotByte
  rw [← hrec, ← d.idx, ← hnr]
  split
  · next hi =>
    exact sameVisible_goTo_rob hstore hnr hnb fun j hj => hrob j (by rwa [toNat_add_one_of_lt hi] at hj)
  · next hi =>
    exact sameVisible_afterRobots hstore ⟨hnr, hnb, fun _ j hj => hrob j (lt_of_lt_of_le hj (Nat.not_lt.mp hi))⟩

/-- R120: the record is decoded from the same bytes and stored at the same index. -/
theorem sameVisible_ballByte (h : SameVisible s t) (b : Byte) (hs : s.st = .decoding) (hp : s.frame.ph = .bal)
    (hc : s.frame.cnt = 1) : SameVisible (ballByte b s) (ballByte b t) := by
  have d := h.decode hs
  obtain ⟨hnr, hnb⟩ := d.counts (.inr hp)
  have hrec : ballRecord b s = ballRecord b t := by
    have h0 : s.frame.scr[0] = t.frame.scr[0] := by simpa using d.scr (by simp [hp]) 0 (by simp [hc])
    rw [ballRecord, ballRecord, h0]
  have hbal : ∀ j, j < s.frame.idx.toNat + 1 →
      (storeBall (ballRecord b s) s).frame.bal[j]? = (storeBall (ballRecord b s) t).frame.bal[j]? := by
    intro j hj
    have hbelow := d.bal hp j
    simp only [storeBall_frame, ← d.idx, List.getElem?_set, h.ballsLen]
    split
    · rfl
    · exact hbelow (by omega)
  have hstore : SameVisible (storeBall (ballRecord b s) s) (storeBall (ballRecord b s) t) :=
    { h with
      ballsLen := by simp [h.ballsLen]
      decode := fun _ => { d with bal := fun _ j hj => hbal j (Nat.lt_succ_of_lt hj) } }
  have hr : SameRobots (storeBall (ballRecord b s) s) (storeBall (ballRecord b s) t) := ⟨hnr, hnb, d.robots hp⟩
  unfold ballByte
  rw [← hrec, ← d.idx, ← hnb]
  split
  · next hi => exact sameVisible_goTo_bal hstore hr fun j hj => hbal j (by rwa [toNat_add_one_of_lt hi] at hj)
  · next hi => exact sameVisible_finish hstore hr fun j hj => hbal j (lt_of_lt_of_le hj (Nat.not_lt.mp hi))

/-- R113 to R120: it is the same rule for both, and the byte is counted in both. -/
theorem answers_decodeStep (h : SameVisible s t) (hs : s.st = .decoding) (b : Byte) :
    Answers SameVisible (decodeStep b s) (decodeStep b t) := by
  have d := h.decode hs
  have hrx := sameVisible_rxByte h
  rcases decodeStep_cases b s with ⟨hp, he⟩ | ⟨hp, he⟩ | ⟨hp, hc, he⟩ | ⟨hp, hc, he⟩ | ⟨hp, hc, he⟩ | ⟨-, -, he⟩
  · rw [he, decodeStep_of_skip (d.ph ▸ hp)]
    exact .next (sameVisible_skipByte hrx hs hp)
  · have hne : s.frame.ph ≠ .skip := by rcases hp with ⟨hp, -⟩ | ⟨hp, -⟩ | ⟨hp, -⟩ <;> simp [hp]
    rw [he, decodeStep_of_incomplete (d.ph ▸ d.cnt ▸ hp)]
    exact .next (sameVisible_gather hrx b hs hne)
  · rw [he, decodeStep_second_header (d.ph ▸ hp) (d.cnt ▸ hc)]
    exact .next (sameVisible_headerByte hrx b hs hp hc)
  · rw [he, decodeStep_of_robot (d.ph ▸ hp) (d.cnt ▸ hc)]
    exact .next (sameVisible_robotByte hrx b hs hp hc)
  · rw [he, decodeStep_of_ball (d.ph ▸ hp) (d.cnt ▸ hc)]
    exact .next (sameVisible_ballByte hrx b hs hp hc)
  · rw [he, decodeStep_fault_of_eq he d.ph d.cnt]
    exact .fault _

/-! ### The events and the step -/

/-- R25: the predicate is the same, because `LAST` may differ only with `LV = 0`. -/
theorem pm_eq_of_sameVisible (h : SameVisible s t) : s.pm = t.pm := by
  rw [State.pm, State.pm, ← h.lv]
  cases hv : s.lv with
  | true => rw [h.last hv]
  | false => rfl

/-- R38, R126: no effect of an event brings an unspecified value out. -/
theorem sameVisible_keptByEvents : KeptByEvents SameVisible where
  cfg h := h.cfg
  st h := h.st
  pm := pm_eq_of_sameVisible
  withOut := sameVisible_withOut
  syncStarted := sameVisible_syncStarted
  aborted := sameVisible_aborted
  frameStarted := sameVisible_frameStarted
  linkLostTaken := sameVisible_linkLostTaken
  takeReset := sameVisible_takeReset
  syncEvent h := sameVisible_syncEvent (sameVisible_rxByte h)
  windowShifted h hs b := sameVisible_windowShifted h b (by simp [hs])
  decodeStep := answers_decodeStep

/-- R21, R36: the next event depends on the environment and on `ST` alone. -/
theorem nextEvent_eq (hst : s.st = t.st) (henv : s.env = t.env) : nextEvent s = nextEvent t := by
  rw [nextEvent, nextEvent, hst, henv]

/-- R19: both machines take the same event, with the same answer. -/
theorem answers_step (h : SameVisible s t) : Answers SameVisible (step s) (step t) := by
  have hnext := nextEvent_eq h.st h.env
  cases hn : nextEvent s with
  | none =>
    rw [step_of_none hn, step_of_none (hnext ▸ hn)]
    exact .fault _
  | some p =>
    rw [step_of_nextEvent hn, step_of_nextEvent (hnext ▸ hn)]
    exact sameVisible_keptByEvents.answers_onEvent (sameVisible_withEnv h p.2) p.1

end

/-- Settles O52: both machines take the same event, and what it reads is the same in both (`answers_step`). -/
theorem unspecifiedValuesAreNeverObserved : Obligations.UnspecifiedValuesAreNeverObserved :=
  fun _ _ h => (answers_step h).matched

/-- Settles O53: with the frame layer, nothing visible is among the registers that `RESET` draws. -/
theorem resetDrawsAreNeverVisible : Obligations.ResetDrawsAreNeverVisible := by
  refine fun s hf => ⟨takeReset s, onEvent_reset s, ?_⟩
  have hframe := takeReset_frame_of_layer hf
  exact
    { cfg := rfl, st := rfl, lv := rfl, last := nofun, cause := rfl, js := by rw [hframe]; rfl
      pubValid := by rw [hframe]; rfl
      pub := by rw [hframe]; exact nofun
      ballsLen := by rw [hframe]; simp [FrameLayer.unspecified, State.resetIn, FrameLayer.reset]
      decode := nofun, ghost := rfl, out := rfl, env := rfl }

end Sys2Proof.Machine
end

section
/-! What a sync report needs (R86): the settling of O15. -/

namespace Sys2Proof.Machine

open Sys2Proof

/-- R86: the step that reports `ev_sync` is the sync event, on a marker taken after a marker. -/
theorem Effect.pair_of_evSync {e : Event} {s t : State} (he : Effect e s t) (hev : t.out.evSync = true) :
    e = .rx syncMarker ∧ s.st = .hunt ∧ s.lv = true ∧ s.last = syncMarker ∧ t = syncEvent (rxByte s) := by
  obtain ⟨hs, ht⟩ := he.evSync_iff.mp hev
  cases he with
  | pair _ hv hl hb => exact ⟨congrArg _ hb, hs, hv, hl, rfl⟩
  | _ => cases hev

/-- R31, R86: only the step that reports `ev_sync` counts a sync event. -/
theorem Effect.evSync_of_counted {e : Event} {s t : State} (he : Effect e s t)
    (hc : t.ghost.syncEvents = s.ghost.syncEvents + 1) : t.out.evSync = true := by
  cases he with
  | pair => rfl
  | reset => cases hc
  | _ => exact absurd hc (Nat.succ_ne_self _).symm

/-- Settles O15: a report and a count both mean the sync event, and the byte of its event is the next of the stream. -/
theorem syncReportOnlyOnAMarkerPair : Obligations.SyncReportOnlyOnAMarkerPair := by
  intro s t h hrep
  obtain ⟨e, v, hn, he⟩ := step_effect h
  have hev : t.out.evSync = true := hrep.elim id he.evSync_of_counted
  obtain ⟨rfl, hs, hv, hl, rfl⟩ := he.pair_of_evSync hev
  rcases nextEvent_stream hn with ⟨b, hb, -, hbyte⟩ | ⟨hne, -⟩
  · cases hb
    exact ⟨hs, hv, hl, hbyte, rfl, rfl, rfl⟩
  · exact absurd rfl (hne syncMarker)

end Sys2Proof.Machine
end

section
/-! What leaves the frame layer untouched (R5, R125, R126): the settling of O35 and O36. -/

namespace Sys2Proof.Machine

open Sys2Proof

/-- R77, R90: the word of `ABORT` aborts outside `FAULTED`. -/
theorem onEvent_abort_of_ne_faulted {s : State} (hs : s.st ≠ .faulted) :
    onEvent (.command (encode .abort)) s = .next (aborted s) :=
  (onCommand_of_decodeFor (decodeFor_encode rfl)).trans (exec_abort_of_ne_faulted hs)

/-- Settles O35: both drop the frame by `dropFrame`, which touches neither the snapshot nor the lists. -/
theorem abandonedFramePublishesNothing : Obligations.AbandonedFramePublishesNothing := by
  rintro s e hs (rfl | rfl)
  · exact ⟨linkLostTaken s, onEvent_linkLost_of_ne_faulted (by simp [hs]), rfl, rfl, rfl, rfl, rfl, rfl, .inl rfl⟩
  · exact ⟨aborted s, onEvent_abort_of_ne_faulted (by simp [hs]), rfl, rfl, rfl, rfl, rfl, rfl, .inr rfl⟩

/-- R5: in a build without the frame layer no effect outside a decode touches its state, and none starts a decode. -/
theorem Effect.frame_eq_of_no_layer {e : Event} {s t : State} (he : Effect e s t) (hf : s.cfg.withFrameLayer = false)
    (hs : s.st ≠ .decoding) : t.frame = s.frame ∧ t.st ≠ .decoding := by
  cases he with
  | illegal | refused | sync | declin | decang | shift | lostAgain => simp_all
  | abort | lost => simp [dropFrame_of_no_layer hf]
  | pair => simp [hf]
  | reset => simp [hf]
  | frame _ _ hfl => cases hf.symm.trans hfl
  | _ => contradiction

/-- Settles O36: no effect touches the frame layer, and none comes from a decode, which is where a frame is reported. -/
theorem withoutFrameLayerItsStateIsUntouched : Obligations.WithoutFrameLayerItsStateIsUntouched := by
  intro s t hf hs h
  obtain ⟨e, v, -, he⟩ := step_effect h
  obtain ⟨hframe, ht⟩ := he.frame_eq_of_no_layer hf hs
  exact ⟨hframe, ht, Bool.eq_false_iff.mpr fun hev => hs (he.evFrame_iff.mp hev).1⟩

end Sys2Proof.Machine
end

section
/-! `FAULTED` is entered only by `LinkLost` and left only by `RESET` (R129, R132, R140): the settling of O38 and O39. -/

namespace Sys2Proof.Machine

open Sys2Proof

/-- R140: in `FAULTED` every event but `RESET` changes the outputs alone. -/
theorem Effect.eq_withOut_of_faulted {e : Event} {s t : State} (he : Effect e s t) (hs : s.st = .faulted)
    (hne : e ≠ .reset) : t = s.withOut t.out := by
  cases he with
  | illegal | refused | declin | decang | lostAgain => rfl
  | reset => contradiction
  | _ => simp_all

/-- Settles O38: the outputs alone change, so no transition is reported; each command by its own meaning. -/
theorem faultedIsLeftOnlyByReset : Obligations.FaultedIsLeftOnlyByReset := by
  refine fun s hs => ⟨fun t e hne h => ?_, ⟨_, onEvent_reset s, rfl⟩, fun i hi => ?_, fun b n => ⟨rfl, rfl⟩,
    onEvent_rx_of_not_pulls (by rw [hs]; rfl), onEvent_linkLost_of_faulted hs⟩
  · have he := onEvent_effect h
    have ht := he.eq_withOut_of_faulted hs hne
    have hst : t.st = .faulted := by rw [ht]; exact hs
    refine ⟨ht, hst, by rw [ht]; rfl, ?_, ?_, ?_⟩
    · simp [Bool.eq_false_iff, he.evFault_iff, hs]
    · simp [Bool.eq_false_iff, he.evSync_iff, hs]
    · simp [Bool.eq_false_iff, he.evFrame_iff, hs]
  · have hp : performedIn i s.st = false := by
      rw [hs]
      fin_cases hi <;> rfl
    exact exec_of_not_performed (.inl hp)

/-- Settles O39: entering `FAULTED` is a transition, and of the listed ones only `LinkLost` raises `fault`. -/
theorem onlyLinkLostFaults : Obligations.OnlyLinkLostFaults := by
  intro s t e h ht hs
  have htrans := (onEvent_effect h).transition.resolve_left fun heq => hs (heq ▸ ht)
  exact htrans.fault_rises ((St.isFaulted_iff t.st).mpr ht)

end Sys2Proof.Machine
end

section
/-! The block stops only where it waits for an event that never comes (R36, R43, R143): the settling of O44. -/

namespace Sys2Proof.Machine

open Sys2Proof

/-- R39: from a state that meets the invariants no byte of a frame stops the decode. -/
theorem StateInv.decodeStep_ne_fault {s : State} (h : StateInv s) (hs : s.st = .decoding) (b : Byte) (f : Fault) :
    decodeStep b s ≠ .fault f := by
  intro hf
  obtain ⟨-, -, hcnt⟩ := decodeStep_eq_fault_iff.mp hf
  exact absurd (h.unit hs) (Nat.not_le.mpr hcnt)

/-- R36, R39: nor does the next event, which is no byte unless the block pulls. -/
theorem StateInv.nextEvent_ne_fault {s : State} (h : StateInv s) {e : Event} {v : Env} (hn : nextEvent s = some (e, v))
    (f : Fault) : onEvent e (s.withEnv v) ≠ .fault f := by
  intro hf
  obtain ⟨b, rfl, ⟨hp, -⟩ | ⟨hs, hd⟩⟩ := onEvent_fault_cases hf
  · rcases nextEvent_stream hn with ⟨_, -, hpull, -⟩ | ⟨hne, -⟩
    · cases hp.symm.trans hpull
    · exact absurd rfl (hne b)
  · exact (h.withEnv v).decodeStep_ne_fault hs b f hd

/-- R43: the block is stuck exactly with no enabled event to come. -/
theorem step_stuck_iff {s : State} : step s = .fault .stuck ↔ nextEvent s = none := by
  refine ⟨fun h => ?_, step_of_none⟩
  cases hn : nextEvent s with
  | none => rfl
  | some p =>
    rw [step_of_nextEvent hn] at h
    obtain ⟨b, -, ⟨-, hf⟩ | ⟨-, hd⟩⟩ := onEvent_fault_cases h
    · cases hf
    · cases (decodeStep_eq_fault_iff.mp hd).1

/-- Log 6: what comes after the listed turns holds no event exactly when none of its turns is one; a free turn always is. -/
theorem laterEvent_eq_none_iff (p : Bool) (bs : Feed Byte) (l : Later Turn) :
    laterEvent p bs l = none ↔
      (∀ k n, l ≠ .free k n) ∧ ∀ xs, l = .again xs → ∀ x ∈ xs, turnEvent p bs x = none := by
  cases l with
  | ends => simp [laterEvent]
  | again xs =>
    simp only [laterEvent, ne_eq, reduceCtorEq, not_false_eq_true, implies_true, true_and, Later.again.injEq, forall_eq',
      ← firstEvent_none_iff]
    cases firstEvent p bs xs <;> simp
  | free k n =>
    simp only [laterEvent]
    split <;> simp

/-- R43: there is no event to come exactly when no turn to come is one. -/
theorem nextEvent_eq_none_iff (s : State) :
    nextEvent s = none ↔ (∀ x ∈ s.env.turns.listed, turnEvent s.st.pulls s.env.stream x = none) ∧
      laterEvent s.st.pulls s.env.stream s.env.turns.later = none := by
  rw [← firstEvent_none_iff, nextEvent]
  cases firstEvent s.st.pulls s.env.stream s.env.turns.listed <;> simp

/-- There is no next turn exactly when none is listed, none is free and none comes again. -/
theorem nextTurn_eq_none_iff (f : Feed Turn) :
    nextTurn f = none ↔ (∀ k n, f.later ≠ .free k n) ∧ f.listed = [] ∧ ∀ xs, f.later = .again xs → xs = [] := by
  obtain ⟨listed, later⟩ := f
  cases listed with
  | cons x xs => simp [nextTurn]
  | nil =>
    cases later with
    | ends => simp [nextTurn]
    | again xs => cases xs <;> simp [nextTurn]
    | free k n => simp [nextTurn]

/-- Settles O44: under the invariants no event faults (`StateInv.nextEvent_ne_fault`), so the step has none; and the turns
to come are all deliveries that cannot happen, which is so of no turn at all, or of any deliveries where one cannot happen
now. -/
theorem theOnlyStopIsWaiting : Obligations.TheOnlyStopIsWaiting := by
  refine ⟨fun s f hinv h => ?_, fun s => ?_⟩
  · cases hn : nextEvent s with
    | none => exact (Host.Outcome.fault.inj ((step_of_none hn).symm.trans h)).symm
    | some p => exact absurd ((step_of_nextEvent hn).symm.trans h) (hinv.nextEvent_ne_fault hn f)
  · rw [step_stuck_iff, nextEvent_eq_none_iff, laterEvent_eq_none_iff]
    simp only [turnEvent_none_iff]
    by_cases hwait : s.st.pulls = false ∨ nextByte s.env.stream = none
    · simp only [hwait, and_true, or_true]
      exact and_left_comm
    · simp only [hwait, and_false, or_false, nextTurn_eq_none_iff, List.eq_nil_iff_forall_not_mem]
      constructor
      · rintro ⟨hlisted, hfree, hagain⟩
        exact ⟨hfree, fun x hx => (hlisted x hx).elim, fun p hp x hx => (hagain p hp x hx).elim, hfree, hlisted, hagain⟩
      · rintro ⟨-, -, -, hfree, hlisted, hagain⟩
        exact ⟨hlisted, hfree, hagain⟩

end Sys2Proof.Machine
end

section
/-! Right after reset (R38), and what never changes (R154): the settling of O41, O42 and O51. -/

namespace Sys2Proof.Machine

open Sys2Proof

/-- Settles O41: the given values are those of `State.resetIn`. -/
theorem resetStateHoldsTheGivenValues : Obligations.ResetStateHoldsTheGivenValues :=
  fun _ _ => ⟨rfl, rfl, rfl, rfl, rfl, rfl, rfl, rfl, rfl, rfl, rfl⟩

/-- Settles O42: the base case of `Reachable.stateInv`. -/
theorem invariantsHoldAtReset : Obligations.InvariantsHoldAtReset := stateInv_resetIn

/-- Settles O51: no effect of an event changes the build. -/
theorem parametersNeverChange : Obligations.ParametersNeverChange := by
  intro s t h
  obtain ⟨e, v, -, he⟩ := step_effect h
  exact he.cfg_eq

end Sys2Proof.Machine
end

section
/-! Words written out from the table (R75, R76): the settling of O4. -/

namespace Sys2Proof

/-- Settles O4: the decoder evaluated on each of the words. -/
theorem sampleWordsDecode : Obligations.SampleWordsDecode := by
  refine ⟨rfl, rfl, rfl, rfl, rfl, rfl, rfl, rfl, rfl, rfl, rfl, rfl, rfl, fun w hw => ?_, rfl⟩
  fin_cases hw <;> rfl

end Sys2Proof
end

section
/-! `ABORT` then `SYNC` (R81): the settling of O54. -/

namespace Sys2Proof.Machine

open Sys2Proof

/-- R90: `ABORT` presented next, outside `FAULTED`, aborts. -/
theorem step_abort {s : State} {ts : Feed Turn} (hs : s.st ≠ .faulted)
    (ht : nextTurn s.env.turns = some (issue .abort, ts)) :
    step s = .next (aborted (s.withEnv { s.env with turns := ts })) :=
  (step_command ht).trans (onEvent_abort_of_ne_faulted hs)

/-- Settles O54: `ABORT` leaves the block in `UNSYNCED`, where `SYNC` starts a hunt with an empty window. -/
theorem resyncRestartsTheHunt : Obligations.ResyncRestartsTheHunt := by
  rintro s _ hs ⟨us, hu, ts, ht, rfl⟩
  have habort := step_abort hs hu
  have hsync := step_sync (s := aborted (s.withEnv { s.env with turns := us })) rfl ht
  exact ⟨_, (runs_succ habort).trans (runs_succ hsync), rfl, rfl, rfl, rfl, rfl, rfl, rfl, rfl, rfl, rfl⟩

end Sys2Proof.Machine
end

section
/-! The order of the events of one cycle (R139) in the binding of R165: the settling of O55. Each event of the cycle is passed
over or taken; a byte is passed over where the events before it leave a block that does not pull. -/

namespace Sys2Proof.Machine

open Sys2Proof

section
variable {happens : State → Bool} {e : Event} {s t : State}

/-- An event that does not happen leaves the cycle as it is. -/
theorem cycleEvent_of_not_happens (h : happens s = false) : cycleEvent happens e (.next s) = .next s := by
  simp [cycleEvent, h]

/-- An event that happens takes effect, and its outputs are added. -/
theorem cycleEvent_of_happens (h : happens s = true) (he : onEvent e s = .next t) :
    cycleEvent happens e (.next s) = .next (t.withOut (Outputs.both s.out t.out)) := by
  simp [cycleEvent, h, he]

/-- R36, R165: no byte is offered to a block that is not ready. -/
theorem cycleEvent_rx_of_not_pulls {b : Byte} {v : Bool} (hs : s.st.pulls = false) :
    cycleEvent (fun t => v && rxReady t) (.rx b) (.next s) = .next s :=
  cycleEvent_of_not_happens (by simp [rxReady, hs])

end

/-- R77: the word of `SYNC` starts a hunt in `UNSYNCED`. -/
theorem onEvent_sync_of_unsynced {s : State} (hs : s.st = .unsynced) :
    onEvent (.command (encode .sync)) s = .next (syncStarted s) :=
  (onCommand_of_decodeFor (decodeFor_encode rfl)).trans (exec_sync_of_unsynced hs)

/-- R77: the word of `ABORT` is refused in `FAULTED`. -/
theorem onEvent_abort_of_faulted {s : State} (hs : s.st = .faulted) :
    onEvent (.command (encode .abort)) s = .next (refuse s) :=
  (onCommand_of_decodeFor (i := .abort) (decodeFor_encode rfl)).trans
    (exec_of_not_performed (.inl (by simp [performedIn, hs])))

/-- R134: after a link loss the block is faulted, whatever it was. -/
theorem takeLinkLost_st (s : State) : (takeLinkLost s).st = .faulted := by
  unfold takeLinkLost
  split
  · next hs => exact hs
  · rfl

/-- R135: a link loss takes no byte and counts nothing. -/
theorem takeLinkLost_ghost (s : State) : (takeLinkLost s).ghost = s.ghost := by
  unfold takeLinkLost
  split <;> rfl

/-- Settles O55: in each cycle, the events in the order of `cycle`, each taken or passed over in the state it finds. -/
theorem cycleEventsKeepTheirPriority : Obligations.CycleEventsKeepTheirPriority := by
  intro s b v
  refine ⟨?_, fun hs => ?_, fun hs => ?_, ?_, ?_⟩ <;> unfold cycle
  · rw [cycleEvent_of_not_happens rfl, cycleEvent_of_happens rfl rfl, cycleEvent_of_not_happens rfl,
      cycleEvent_rx_of_not_pulls (by rw [State.withOut_st, takeLinkLost_st]; rfl)]
    exact ⟨_, rfl, takeLinkLost_st _, congrArg Ghosts.consumed (takeLinkLost_ghost _)⟩
  · rw [cycleEvent_of_not_happens rfl, cycleEvent_of_not_happens rfl,
      cycleEvent_of_happens rfl (onEvent_abort_of_ne_faulted (s := s.withOut .quiet) hs), cycleEvent_rx_of_not_pulls rfl]
    exact ⟨_, rfl, rfl, rfl⟩
  · rw [cycleEvent_of_not_happens rfl, cycleEvent_of_happens rfl (onEvent_linkLost_of_ne_faulted (s := s.withOut .quiet) hs),
      cycleEvent_of_happens rfl (onEvent_abort_of_faulted rfl), cycleEvent_rx_of_not_pulls rfl]
    exact ⟨_, rfl, rfl, rfl, rfl, rfl⟩
  · rw [cycleEvent_of_happens rfl (onEvent_reset _), cycleEvent_of_happens rfl (onEvent_linkLost_of_ne_faulted (by simp)),
      cycleEvent_of_not_happens rfl, cycleEvent_rx_of_not_pulls rfl]
    exact ⟨_, rfl, rfl, rfl, rfl⟩
  · rw [cycleEvent_of_happens rfl (onEvent_reset _), cycleEvent_of_not_happens rfl,
      cycleEvent_of_happens rfl (onEvent_sync_of_unsynced rfl), cycleEvent_of_not_happens rfl]
    exact ⟨_, rfl, rfl, rfl⟩

end Sys2Proof.Machine
end

section
/-! A frame as its sender lays it out (R62 to R70), read back by the whole-frame view (R127): what the settling of O34 needs of
the wire format. -/

namespace Sys2Proof.Machine

open Sys2Proof

/-! ### Records of one size, one after the other -/

/-- Byte `j` of record `i` of a list of records of `n` bytes each. -/
theorem getElem?_flatMap_of_length {α β : Type} {g : α → List β} {n : Nat} (hg : ∀ x, (g x).length = n) {l : List α}
    {i j : Nat} {x : α} (hi : l[i]? = some x) (hj : j < n) : (l.flatMap g)[n * i + j]? = (g x)[j]? := by
  induction l generalizing i with
  | nil => simp at hi
  | cons y ys ih =>
    rw [List.flatMap_cons]
    cases i with
    | zero =>
      obtain rfl : y = x := by simpa using hi
      rw [Nat.mul_zero, Nat.zero_add, List.getElem?_append_left (by rw [hg]; exact hj)]
    | succ i =>
      rw [List.getElem?_append_right (by rw [hg, Nat.mul_succ]; omega), hg,
        show n * (i + 1) + j - n = n * i + j by rw [Nat.mul_succ]; omega]
      exact ih (by simpa using hi)

/-- The bytes of a list of records of `n` bytes each. -/
theorem length_flatMap_of_length {α β : Type} {g : α → List β} {n : Nat} (hg : ∀ x, (g x).length = n) (l : List α) :
    (l.flatMap g).length = n * l.length := by
  simp [List.length_flatMap, hg, Nat.mul_comm]

section
variable {c : Config} {f : WireFrame}

/-! ### The payload -/

@[simp] theorem WireRobot.bytes_length (r : WireRobot) : r.bytes.length = 5 := rfl

@[simp] theorem WireBall.bytes_length (b : WireBall) : b.bytes.length = 2 := rfl

/-- R70: the length of a payload. -/
theorem payload_length (f : WireFrame) : f.payload.length = 2 + 5 * f.robots.length + 2 * f.balls.length := by
  rw [WireFrame.payload, List.length_append, List.length_append, length_flatMap_of_length WireRobot.bytes_length,
    length_flatMap_of_length WireBall.bytes_length]
  rfl

/-- R65, R121: the bytes of a robot record stand after the header. -/
theorem payload_getD_robot {i j : Nat} {r : WireRobot} (hi : f.robots[i]? = some r) (hj : j < 5) :
    f.payload.getD (formOffset true + 2 + 5 * i + j) 0 = r.bytes.getD j 0 := by
  have hlen := length_flatMap_of_length WireRobot.bytes_length f.robots
  have hlt : i < f.robots.length := (List.getElem?_eq_some_iff.mp hi).1
  have hplace : formOffset true + 2 + 5 * i + j = [f.numRobots, f.numBalls].length + (5 * i + j) := by
    simp [formOffset, Nat.add_assoc]
  rw [List.getD_eq_getElem?_getD, List.getD_eq_getElem?_getD, hplace, WireFrame.payload, List.append_assoc,
    List.getElem?_append_right (Nat.le_add_right _ _), Nat.add_sub_cancel_left,
    List.getElem?_append_left (by omega), getElem?_flatMap_of_length WireRobot.bytes_length hi hj]

/-- R67, R121: the bytes of a ball record stand after the robots. -/
theorem payload_getD_ball {i j : Nat} {b : WireBall} (hi : f.balls[i]? = some b) (hj : j < 2) :
    f.payload.getD (formOffset true + 2 + 5 * f.robots.length + 2 * i + j) 0 = b.bytes.getD j 0 := by
  have hplace : formOffset true + 2 + 5 * f.robots.length + 2 * i + j =
      ([f.numRobots, f.numBalls] ++ f.robots.flatMap WireRobot.bytes).length + (2 * i + j) := by
    simp [formOffset, length_flatMap_of_length WireRobot.bytes_length]
    omega
  rw [List.getD_eq_getElem?_getD, List.getD_eq_getElem?_getD, hplace, WireFrame.payload,
    List.getElem?_append_right (Nat.le_add_right _ _), Nat.add_sub_cancel_left,
    getElem?_flatMap_of_length WireBall.bytes_length hi hj]

/-! ### The view of a payload -/

/-- R62, R64: the counts are the lengths of the lists, and within the capacities of a build with the robot list. -/
structure FrameFits (c : Config) (f : WireFrame) : Prop where
  list   : c.withRobotList = true
  robots : f.numRobots.toNat = f.robots.length
  nr     : f.robots.length ≤ maxRobots
  balls  : f.numBalls.toNat = f.balls.length
  nb     : f.balls.length ≤ c.maxBalls

/-- R115: no count is clamped. -/
theorem FrameFits.formNr_eq (h : FrameFits c f) : formNr true f.payload = f.robots.length := by
  have hhead : f.payload.getD (formOffset true) 0 = f.numRobots := rfl
  rw [formNr, hhead, h.robots, Nat.min_eq_left h.nr]

theorem FrameFits.formNb_eq (h : FrameFits c f) : formNb c true f.payload = f.balls.length := by
  have hhead : f.payload.getD (formOffset true + 1) 0 = f.numBalls := rfl
  rw [formNb, hhead, h.balls, Nat.min_eq_left h.nb]

theorem FrameFits.formRobots_eq (h : FrameFits c f) : formRobots c true f.payload = f.robots.length := by
  rw [formRobots_of_robotList h.list, h.formNr_eq]

/-- R70, R127: the decode takes exactly the payload. -/
theorem FrameFits.formLength_eq (h : FrameFits c f) : formLength c true f.payload = f.payload.length := by
  rw [formLength, h.formRobots_eq, h.formNb_eq, payload_length, formOffset, if_pos rfl, Nat.zero_add]

/-- Values of a function that agree with the elements of a list are the list. -/
theorem map_range_eq_map {α β : Type} {l : List α} {g : Nat → β} {k : α → β} (h : ∀ i x, l[i]? = some x → g i = k x) :
    (List.range l.length).map g = l.map k := by
  refine List.ext_getElem (by simp) fun i _ hi => ?_
  simpa using h i _ (List.getElem?_eq_getElem (by simpa using hi))

/-- R127: the view of a payload is the frame its sender laid out. -/
theorem FrameFits.formSnapshot_eq (h : FrameFits c f) : formSnapshot c true f.payload = f.snapshot c := by
  have hrob : (List.range f.robots.length).map (formRobot c true f.payload) = f.robots.map (decodeRobot c) := by
    refine map_range_eq_map fun i r hi => ?_
    have h0 := payload_getD_robot hi (show 0 < 5 by decide)
    have h1 := payload_getD_robot hi (show 1 < 5 by decide)
    have h2 := payload_getD_robot hi (show 2 < 5 by decide)
    have h3 := payload_getD_robot hi (show 3 < 5 by decide)
    have h4 := payload_getD_robot hi (show 4 < 5 by decide)
    rw [Nat.add_zero] at h0
    rw [formRobot, h0, h1, h2, h3, h4]
    rfl
  have hbal : (List.range f.balls.length).map (formBall c true f.payload) = f.balls.map decodeBall := by
    refine map_range_eq_map fun i b hi => ?_
    have h0 := payload_getD_ball hi (show 0 < 2 by decide)
    have h1 := payload_getD_ball hi (show 1 < 2 by decide)
    rw [Nat.add_zero] at h0
    rw [formBall, h.formRobots_eq, h0, h1]
    rfl
  rw [formSnapshot, WireFrame.snapshot, h.formNr_eq, h.formNb_eq, h.formRobots_eq, hrob, hbal, ← h.robots, ← h.balls]
  simp

end

end Sys2Proof.Machine
end

section
/-! `FRAMEX` of a block that joins in the middle of a frame (R81, R156): the settling of O34. -/

namespace Sys2Proof.Machine

open Sys2Proof

@[simp] theorem deliveries_length (n : Nat) : (deliveries n).length = n := List.length_replicate

/-- One more turn of the source, after the others. -/
theorem deliveries_succ (n : Nat) : deliveries (n + 1) = deliveries n ++ [.deliver] := List.replicate_succ'

/-- R80, R87: turns of the source alone feed as many bytes. -/
theorem feeds_deliveries (n : Nat) : Feeds (deliveries n) n :=
  ⟨List.count_replicate_self, fun _ hx => .inl (List.eq_of_mem_replicate hx)⟩

/-- R87: `SYNC` and the bytes up to the end of the first marker pair: the block is synced, and with the frame layer the
marker pair of a frame to come is consumed. -/
theorem runs_sync_pair {s : State} {as : List Byte} {rest : Feed Byte} {ts : Feed Turn} (hs : s.st = .unsynced)
    (hpair : firstPair as = none) (hlast : as.getLast? = some syncMarker)
    (hd : Delivers s.env.stream (as ++ [syncMarker]) rest)
    (hp : Presents s.env.turns (issue .sync :: deliveries (as.length + 1)) ts) :
    ∃ t, runs (as.length + 2) s = .next t ∧ t.st = .synced ∧ t.cfg = s.cfg ∧
      t.frame = { s.frame with js := if s.cfg.withFrameLayer then true else s.frame.js } ∧
      t.env = { turns := ts, stream := rest } := by
  obtain ⟨us, hu, hp⟩ := hp
  rw [deliveries_succ] at hp
  obtain ⟨u, hover, hrun⟩ := runs_hunt_pair (s := syncStarted (s.withEnv { s.env with turns := us })) rfl rfl rfl hpair
    hlast hd (feeds_deliveries as.length) hp
  rw [deliveries_length] at hrun
  refine ⟨_, (runs_succ (step_sync hs hu)).trans hrun, rfl, hover.cfg, ?_, rfl⟩
  simp [hover.cfg, hover.frame]

/-- Settles O34: the hunt ends at the marker pair of the next frame (`runs_sync_pair`), and the decode of its payload
publishes the whole-frame view (R127), which is the frame as it was laid out (`FrameFits.formSnapshot_eq`). -/
theorem joinedMidFrameTheNextFrameIsPublished : Obligations.JoinedMidFrameTheNextFrameIsPublished := by
  intro s junk rest f ts hs hfl hlist hsize hfirst hnr hnr' hnb hnb' hp hd
  have hfits : FrameFits s.cfg f := ⟨hlist, hnr, hnr', hnb, hnb'⟩
  have hlay : s.cfg.layoutKnown = true := by
    have hpresent : s.cfg.robotList = .present := of_decide_eq_true hlist
    simp [Config.layoutKnown, hpresent]
  obtain ⟨as, has, hlen, hlast, hpair⟩ := exists_of_firstPair_at_end hfirst (by simp)
  have hstream : junk ++ f.bytes = (as ++ [syncMarker]) ++ f.payload := by
    rw [← has, WireFrame.bytes, List.append_assoc]; rfl
  rw [hstream] at hd
  obtain ⟨g, hd, hpay⟩ := Feed.starts_append.mp hd
  rw [framex, if_pos hs, ← show as.length + 1 = junk.length + 2 by rw [hlen]] at hp
  obtain ⟨us, hp, hp'⟩ := Feed.starts_append.mp hp
  obtain ⟨t, hrun, hst, hcfg, hframe, henv⟩ := runs_sync_pair hs hpair hlast hd hp
  have hjs : t.frame.js = true := by rw [hframe]; exact if_pos hfl
  have hsize' : BallsSized t := by rw [BallsSized, hframe, hcfg]; exact hsize
  obtain ⟨n, hn⟩ : ∃ n, f.payload.length = n + 1 := Nat.exists_eq_succ_of_ne_zero (by rw [payload_length]; omega)
  rw [hn, deliveries_succ] at hp'
  have hlen' : f.payload.length = formLength t.cfg t.frame.js f.payload := by rw [hjs, hcfg, hfits.formLength_eq]
  have hview := (frameDecodeAgreesWithTheWholeFrameView t f.payload rest hst (hcfg ▸ hfl) (hcfg ▸ hlay) hsize' hlen'
    (by rw [henv]; exact hpay)).1 n (deliveries n) ts (feeds_deliveries n) hn.symm (by rw [henv]; exact hp')
  obtain ⟨-, u, hrun', hst', hjs', hvalid, hpub, -, -, -, henv'⟩ := hview
  refine ⟨u, ?_, hst', hjs', ?_, henv'⟩
  · have hsteps : junk.length + f.payload.length + 4 = as.length + 2 + ((deliveries n).length + 2) := by
      rw [deliveries_length]; omega
    rw [hsteps]
    exact (runs_add _ hrun).trans hrun'
  · rw [State.readSnapshot, if_pos hvalid, hpub, hjs, hcfg, hfits.formSnapshot_eq]

end Sys2Proof.Machine
end
